-- ==== Sys2Proof/Word.lean ====
section
/-! DEFINITION. The word types every other file uses: the byte of the 32 KiB memory, the 16-bit and the
32-bit word of the command port (00_scope.md R11, R16; 10_state.md R21; 30_encoding.md R100). -/

namespace Sys2Proof

/-- A byte: the unit of `RAM`, of the cart image and of every decoder buffer (R21, R51). -/
abbrev Byte := BitVec 8

/-- A byte sequence: a cart image, a script text, a decoder buffer. -/
abbrev Bytes := List Byte

/-- A 16-bit value: the fill pattern, a noise register, a phase position, a sample. -/
abbrev Half := BitVec 16

/-- A 32-bit word: a header word, an operand word or a result word of the command port (R100). -/
abbrev Word := BitVec 32

/-- An operand slot of a command: the word it carries when the presence mask says it is supplied,
`none` when it is not (R16, R100: an omitted operand is signalled by the mask, not by a value). -/
abbrev Operand := Option Word

end Sys2Proof
end

