-- ==== Sys2Proof/Syntax.lean ====
section
/-! DEFINITION. The instruction set as syntax: one constructor of `Instr` for each row of
spec/opcode_table.json (44 commands of the command port, 21 tokens of the decoder's streams), the form
in which a command is presented on the ports, and the Huffman tables a DEFLATE token is coded with. -/

namespace Sys2Proof

/-- What `load_cart` is given (60_exceptions.md R476, R480, R481): a cart image with, optionally, a save
blob of any length, or the host's indication that it could not read the cart file. -/
inductive CartSource where
  | image (file : Bytes) (sav : Option Bytes)
  | readFailure
  deriving DecidableEq, Repr, Inhabited

/-- What stands on the data port beside a command (30_encoding.md R100): nothing, a byte string (the
string of `text`), or the operand of `load_cart`. -/
inductive DataIn where
  | empty
  | bytes (b : Bytes)
  | cart (src : CartSource)
  deriving DecidableEq, Repr, Inhabited

/-- One operation as it stands on the ports before it is decoded: its header word followed by its operand
words, and its data port content, which is complete before the command starts (R100). -/
structure Request where
  words : List Word
  data : DataIn
  deriving DecidableEq, Repr, Inhabited

/-- A canonical Huffman code as the inflate engine holds it (10_state.md R52, 42_inflate.md R220):
`count[l]` is the number of codes of length `l` for `l` = 0..15, `symbol` lists the symbols ordered by code. -/
structure Huff where
  count : List Nat
  symbol : List Nat
  deriving DecidableEq, Repr, Inhabited

/-- The instructions: one constructor per row of spec/opcode_table.json, in the table's order. The first
44 are commands (30_encoding.md R101): every operand slot is an `Operand`, also a required one, because
R101 gives a command whose required operand is unsupplied a meaning (a no-op that returns 0). The last 21
are stream tokens (42 to 44); each carries the operands its rule names. -/
inductive Instr where
  -- memory commands (40_memory_ops.md)
  | read8 (addr : Operand)
  | read16 (addr : Operand)
  | read32 (addr : Operand)
  | write8 (addr v : Operand)
  | write16 (addr v : Operand)
  | write32 (addr v : Operand)
  | bulkCopy (dst src len : Operand)
  | bulkFill (dst value len : Operand)
  -- controller commands (60_exceptions.md, 70_reset_and_hazards.md)
  | reset
  | loadCart (src : CartSource)
  | run
  | pause
  | resume
  | stop
  | unload
  | step
  | queryError
  | queryFps
  | queryFrame
  -- rasterizer state (46_raster_state.md)
  | setClip (x y w h : Operand)
  | setCamera (x y : Operand)
  | setColor (c : Operand)
  | setPalette (c0 c1 p : Operand)
  | setTransparent (c t : Operand)
  | setFillPattern (pattern trans : Operand)
  | setCursor (x y c : Operand)
  -- rasterizer primitives (47_raster_primitives.md)
  | clear (c : Operand)
  | setPixel (x y c : Operand)
  | getPixel (x y : Operand)
  | line (x0 y0 x1 y1 c : Operand)
  | rect (x0 y0 x1 y1 c : Operand)
  | rectFill (x0 y0 x1 y1 c : Operand)
  | circle (x y r c : Operand)
  | circleFill (x y r c : Operand)
  | ellipse (x0 y0 x1 y1 c : Operand)
  | ellipseFill (x0 y0 x1 y1 c : Operand)
  -- blitters and text (48_raster_blit_text.md)
  | sprite (n x y w h flipX flipY : Operand)
  | spriteScaled (sx sy sw sh dx dy dw dh flipX flipY : Operand)
  | tileMap (cx0 cy0 sx sy cw ch layers : Operand)
  | text (str : Bytes) (x y c : Operand)
  -- synthesizer (49_synth.md)
  | sfx (n channel offset : Operand)
  | music (n : Operand)
  | setMasterVolume (v : Operand)
  | sample
  -- DEFLATE block headers and tokens (42_inflate.md); `final` is the header's BFINAL bit
  | dfStored (final : Bool)
  | dfFixed (final : Bool)
  | dfDynamic (final : Bool)
  | dfReserved (final : Bool)
  | dfLit (sym : Byte)
  | dfEob
  | dfLen (lsym lextra dsym dextra : Nat)
  -- scanline filter bytes (43_png_unfilter_extract.md)
  | fltNone
  | fltSub
  | fltUp
  | fltAvg
  | fltPaeth
  -- new-format script tokens (44_code_decompress.md); a reference's `field` is its stored offset field
  | nfLit (index : Byte)
  | nfRef15 (field : BitVec 15) (length : Nat)
  | nfRef10 (field : BitVec 10) (length : Nat)
  | nfRef5 (field : BitVec 5) (length : Nat)
  | nfRaw
  -- legacy script codes and the raw script (44_code_decompress.md)
  | lgEsc (b1 : Byte)
  | lgSym (b0 : Byte)
  | lgRef (b0 b1 : Byte)
  | rawScript
  deriving DecidableEq, Repr, Inhabited

/-- May this instruction stand in a hook's trace? R489: the script-facing surface (opcodes 0x00..0x07,
0x20..0x43, 0x50, 0x51), and a sample step, which may fall between any two commands of a trace (R91,
R489). No controller command may (R489, R495; 93_implementation_defined.md U4), and neither
`set_master_volume` (0x52), which R489 does not list, nor a stream token, which is no command. -/
def Instr.inTrace : Instr → Bool
  | .read8 .. | .read16 .. | .read32 .. | .write8 .. | .write16 .. | .write32 ..
  | .bulkCopy .. | .bulkFill .. => true
  | .reset | .loadCart .. | .run | .pause | .resume | .stop | .unload | .step
  | .queryError | .queryFps | .queryFrame => false
  | .setClip .. | .setCamera .. | .setColor .. | .setPalette .. | .setTransparent ..
  | .setFillPattern .. | .setCursor .. => true
  | .clear .. | .setPixel .. | .getPixel .. | .line .. | .rect .. | .rectFill .. | .circle ..
  | .circleFill .. | .ellipse .. | .ellipseFill .. => true
  | .sprite .. | .spriteScaled .. | .tileMap .. | .text .. => true
  | .sfx .. | .music .. => true
  | .setMasterVolume .. => false
  | .sample => true
  | .dfStored .. | .dfFixed .. | .dfDynamic .. | .dfReserved .. | .dfLit .. | .dfEob | .dfLen .. => false
  | .fltNone | .fltSub | .fltUp | .fltAvg | .fltPaeth => false
  | .nfLit .. | .nfRef15 .. | .nfRef10 .. | .nfRef5 .. | .nfRaw => false
  | .lgEsc .. | .lgSym .. | .lgRef .. | .rawScript => false

/-- An entry of a hook's trace: an instruction that may stand there, with the proof that it may, so that a
trace with a controller command cannot be written down (93_implementation_defined.md U4: the model's type of
hook traces has no constructor for controller commands). -/
abbrev TraceItem := { i : Instr // i.inTrace = true }

/-- Is this instruction a command of the command port or the sample port (one of the first 44 rows)? -/
def Instr.isCommand : Instr → Bool
  | .read8 .. | .read16 .. | .read32 .. | .write8 .. | .write16 .. | .write32 ..
  | .bulkCopy .. | .bulkFill .. => true
  | .reset | .loadCart .. | .run | .pause | .resume | .stop | .unload | .step
  | .queryError | .queryFps | .queryFrame => true
  | .setClip .. | .setCamera .. | .setColor .. | .setPalette .. | .setTransparent ..
  | .setFillPattern .. | .setCursor .. => true
  | .clear .. | .setPixel .. | .getPixel .. | .line .. | .rect .. | .rectFill .. | .circle ..
  | .circleFill .. | .ellipse .. | .ellipseFill .. => true
  | .sprite .. | .spriteScaled .. | .tileMap .. | .text .. => true
  | .sfx .. | .music .. | .setMasterVolume .. | .sample => true
  | .dfStored .. | .dfFixed .. | .dfDynamic .. | .dfReserved .. | .dfLit .. | .dfEob | .dfLen .. => false
  | .fltNone | .fltSub | .fltUp | .fltAvg | .fltPaeth => false
  | .nfLit .. | .nfRef15 .. | .nfRef10 .. | .nfRef5 .. | .nfRaw => false
  | .lgEsc .. | .lgSym .. | .lgRef .. | .rawScript => false

end Sys2Proof
end

