-- ==== Sys2Proof/Config.lean ====
section
/-! DEFINITION. What an implementation fixes: the parameters the spec leaves open, as one record of plain
data (00_scope.md R10: each is an argument of the model, a field of its configuration record), the spec's
default of each, and the functions the spec leaves free (opaque: nothing can be proved of their values).
The record is a field of `State`, which no instruction writes, so that a claim about every state is a claim
about every configuration. -/

namespace Sys2Proof

/-- Which function a function-valued parameter is: the spec's own reference, or the `k`-th of the functions
this file leaves free. A claim about every `ParamFn` holds whatever the hardware's function is. -/
inductive ParamFn where
  | reference
  | custom (k : Nat)
  deriving DecidableEq, Repr, Inhabited

/-- `LAYOUT`: the address of every field of the draw-state and hardware-state blocks (10_state.md R31, R36). -/
structure Layout where
  drawPal : Nat
  screenPal : Nat
  clipX0 : Nat
  clipY0 : Nat
  clipX1 : Nat
  clipY1 : Nat
  pen : Nat
  cursorX : Nat
  cursorY : Nat
  cameraX : Nat
  cameraY : Nat
  fillp : Nat
  fillpTrans : Nat
  lineX : Nat
  lineY : Nat
  rngA : Nat
  rngB : Nat
  btn : Nat
  remapGfx : Nat
  remapScreen : Nat
  remapMap : Nat
  mapWidth : Nat
  btnpDelay : Nat
  btnpInterval : Nat
  bitmask : Nat
  deriving DecidableEq, Repr, Inhabited

/-- The default `LAYOUT` (10_state.md R31, R36; decision D9). -/
def Layout.default : Layout where
  drawPal := 0x5F00
  screenPal := 0x5F10
  clipX0 := 0x5F20
  clipY0 := 0x5F21
  clipX1 := 0x5F22
  clipY1 := 0x5F23
  pen := 0x5F25
  cursorX := 0x5F26
  cursorY := 0x5F27
  cameraX := 0x5F28
  cameraY := 0x5F2A
  fillp := 0x5F31
  fillpTrans := 0x5F33
  lineX := 0x5F3C
  lineY := 0x5F3E
  rngA := 0x5F44
  rngB := 0x5F48
  btn := 0x5F4C
  remapGfx := 0x5F54
  remapScreen := 0x5F55
  remapMap := 0x5F56
  mapWidth := 0x5F57
  btnpDelay := 0x5F5C
  btnpInterval := 0x5F5D
  bitmask := 0x5F5E

/-- The draw-state fields of a layout as (address, width) pairs (R31). -/
def Layout.drawFields (l : Layout) : List (Nat × Nat) :=
  [(l.drawPal, 16), (l.screenPal, 16), (l.clipX0, 1), (l.clipY0, 1), (l.clipX1, 1), (l.clipY1, 1),
   (l.pen, 1), (l.cursorX, 1), (l.cursorY, 1), (l.cameraX, 2), (l.cameraY, 2), (l.fillp, 2),
   (l.fillpTrans, 1), (l.lineX, 2), (l.lineY, 2)]

/-- The hardware-state fields of a layout as (address, width) pairs (R36). -/
def Layout.hwFields (l : Layout) : List (Nat × Nat) :=
  [(l.rngA, 4), (l.rngB, 4), (l.btn, 2), (l.remapGfx, 1), (l.remapScreen, 1), (l.remapMap, 1),
   (l.mapWidth, 1), (l.btnpDelay, 1), (l.btnpInterval, 1), (l.bitmask, 1)]

/-- Do no two fields of the list share an address? -/
def fieldsApart : List (Nat × Nat) → Bool
  | [] => true
  | (a, n) :: rest => rest.all (fun q => a + n ≤ q.1 || q.1 + q.2 ≤ a) && fieldsApart rest

/-- The constraint R31 and R36 put on `LAYOUT`: draw-state fields inside 0x5F00..0x5F3F, hardware-state
fields inside 0x5F40..0x5F7F, no overlap, the widths given. -/
def Layout.ok (l : Layout) : Bool :=
  l.drawFields.all (fun q => 0x5F00 ≤ q.1 && q.1 + q.2 ≤ 0x5F40) &&
  l.hwFields.all (fun q => 0x5F40 ≤ q.1 && q.1 + q.2 ≤ 0x5F80) &&
  fieldsApart l.drawFields && fieldsApart l.hwFields

/-- `TEXT_TAGS`: the spelling of the section tags of a text cart (30_encoding.md R140). -/
structure TextTags where
  lua : Bytes
  gfx : Bytes
  gff : Bytes
  map : Bytes
  sfx : Bytes
  music : Bytes
  label : Bytes
  deriving DecidableEq, Repr, Inhabited

/-- The default tags `__lua__`, `__gfx__`, `__gff__`, `__map__`, `__sfx__`, `__music__`, `__label__` as
ASCII bytes (R140). -/
def TextTags.default : TextTags where
  lua := [0x5F, 0x5F, 0x6C, 0x75, 0x61, 0x5F, 0x5F]
  gfx := [0x5F, 0x5F, 0x67, 0x66, 0x78, 0x5F, 0x5F]
  gff := [0x5F, 0x5F, 0x67, 0x66, 0x66, 0x5F, 0x5F]
  map := [0x5F, 0x5F, 0x6D, 0x61, 0x70, 0x5F, 0x5F]
  sfx := [0x5F, 0x5F, 0x73, 0x66, 0x78, 0x5F, 0x5F]
  music := [0x5F, 0x5F, 0x6D, 0x75, 0x73, 0x69, 0x63, 0x5F, 0x5F]
  label := [0x5F, 0x5F, 0x6C, 0x61, 0x62, 0x65, 0x6C, 0x5F, 0x5F]

/-- The parameters of 00_scope.md R10 and the parameter functions and tables introduced where used
(92_eei_decisions.md, "Open parameters, collected"). -/
structure Config where
  /-- `SAMPLE_RATE`, Hz, positive (R420, D40). -/
  sampleRate : Nat
  /-- `MASTER_VOL_RESET` (R46, D47). -/
  masterVolReset : Byte
  /-- `NOTE_FREQ`, 64 entries (R421, D41). -/
  noteFreq : List Nat
  /-- `WAVE` (R445, D42); its reference is `WAVE_REF`, R446. -/
  wave : ParamFn
  /-- `LFSR_STEP` (R447, D43); its reference is `LFSR_REF`. -/
  lfsrStep : ParamFn
  /-- `LFSR_SEED` (R447, D43). -/
  lfsrSeed : Half
  /-- `FONT` (R405, D36); its reference is the stub font of R408's example. The spec gives no default. -/
  font : ParamFn
  /-- `GLYPH_H` (R405, D36). -/
  glyphH : Nat
  /-- `CODE_CAP` (R271, D24). -/
  codeCap : Nat
  /-- `IDAT_CAP` (R195, D14). -/
  idatCap : Nat
  /-- `PNG_MAX_W`, `PNG_MAX_H` (R194, D14). -/
  pngMaxW : Nat
  pngMaxH : Nat
  /-- `CODE_STREAM_OFF`, 6 or 8 (R128, D20). -/
  codeStreamOff : Nat
  /-- `CHECK_ZLIB`, `CHECK_ADLER`, `CHECK_CRC` (R193, R198, D12, D13). -/
  checkZlib : Bool
  checkAdler : Bool
  checkCrc : Bool
  /-- `ERR_SENTINEL`, a negative integer (R474, D22). -/
  errSentinel : Int
  /-- `MAP_LAYER_ALL` (R402, D35). -/
  mapLayerAll : Bool
  /-- `LAYOUT` (R31, R36, D9). -/
  layout : Layout
  /-- `DEFAULT_PEN` (R514, D10). -/
  defaultPen : Byte
  /-- `LEGACY_REF` (R135, D23). -/
  legacyRef : ParamFn
  /-- `LEGACY_ALPHABET` (R136, 93_implementation_defined.md U20). -/
  legacyAlphabet : ParamFn
  /-- `TEXT_TAGS` (R140, D26). -/
  textTags : TextTags
  /-- `TEXT_SFX_LINE` (R316, D26). -/
  textSfxLine : ParamFn
  /-- `TEXT_MUSIC_LINE` (R317, D26). -/
  textMusicLine : ParamFn
  deriving DecidableEq, Repr, Inhabited

/-- The default `NOTE_FREQ` (49_synth.md R421). -/
def defaultNoteFreq : List Nat :=
  [65, 69, 73, 78, 82, 87, 93, 98, 104, 110, 117, 123] ++
  [131, 139, 147, 156, 165, 175, 185, 196, 208, 220, 233, 247] ++
  [262, 277, 294, 311, 330, 349, 370, 392, 415, 440, 466, 494] ++
  [523, 554, 587, 622, 659, 698, 740, 784, 831, 880, 932, 988] ++
  [1047, 1109, 1175, 1245, 1319, 1397, 1480, 1568, 1661, 1760, 1865, 1976] ++
  [2093, 2218, 2349, 2489]

/-- The defaults of 00_scope.md R10, which the spec's test vectors use. `FONT` has no default there: it is
left free. -/
def Config.default : Config where
  sampleRate := 22050
  masterVolReset := 255
  noteFreq := defaultNoteFreq
  wave := .reference
  lfsrStep := .reference
  lfsrSeed := 0xACE1
  font := .custom 0
  glyphH := 5
  codeCap := 65536
  idatCap := 262144
  pngMaxW := 1024
  pngMaxH := 1024
  codeStreamOff := 8
  checkZlib := false
  checkAdler := false
  checkCrc := false
  errSentinel := -1
  mapLayerAll := false
  layout := Layout.default
  defaultPen := 6
  legacyRef := .reference
  legacyAlphabet := .reference
  textTags := TextTags.default
  textSfxLine := .reference
  textMusicLine := .reference

/-- The constraints R10 states on the parameters: a positive sample rate, 64 note frequencies, a non-zero noise
seed, positive capacities and limits, a stream offset of 6 or 8, a negative sentinel, a legal layout (R31, R36).
Three bounds are the model's and no rule's (DESIGN CHOICE, log entry 32): `codeCap` below 2^31 and the sentinel
at least -2^31, so that a script length and the sentinel are what the 32-bit signed result word says, and note
frequencies below 2^32, the width of the register they are cached in. -/
def Config.ok (c : Config) : Bool :=
  0 < c.sampleRate && c.noteFreq.length == 64 && c.noteFreq.all (fun f => f < 2 ^ 32) &&
  c.lfsrSeed != 0 && 0 < c.glyphH && 0 < c.codeCap && c.codeCap < 2 ^ 31 && 0 < c.idatCap && 0 < c.pngMaxW && 0 < c.pngMaxH &&
  (c.codeStreamOff == 6 || c.codeStreamOff == 8) &&
  (c.errSentinel < 0 && -(2 ^ 31) ≤ c.errSentinel) && c.layout.ok

/-- The three hooks a cart may define that the controller calls (60_exceptions.md R484, R488); the two
update hooks are told apart. -/
inductive Hook where
  | init
  | update
  | update60
  | draw
  deriving DecidableEq, Repr, Inhabited

/-- What the script engine answers to a hook call (R489): success or failure, the error message, and the
commands it issued, in order. -/
structure HookAnswer where
  ok : Bool
  msg : Bytes
  trace : List TraceItem
  deriving DecidableEq, Repr, Inhabited

/-- What the script engine answers to the load call (R482): compile and top-level result, the commands of
the top-level statements, and which hooks exist. -/
structure LoadAnswer where
  ok : Bool
  msg : Bytes
  trace : List TraceItem
  hasInit : Bool
  hasUpdate : Bool
  hasUpdate60 : Bool
  hasDraw : Bool
  deriving DecidableEq, Repr, Inhabited

/-- FREE. The `k`-th waveform generator of which nothing is known (R445: no formula in the document). -/
opaque Config.customWave : Nat → BitVec 3 → Half → Half → Half

/-- FREE. The `k`-th noise-register clock of which nothing is known (R447). -/
opaque Config.customLfsr : Nat → Half → Half

/-- FREE. The `k`-th font of which nothing is known (R405: the spec does not supply a font). -/
opaque Config.customFont : Nat → Byte → Fin 8 → Byte

/-- FREE. The `k`-th legacy back-reference arithmetic (R135): offset and length of a byte pair. -/
opaque Config.customLegacyRef : Nat → Byte → Byte → Nat × Nat

/-- FREE. The `k`-th legacy alphabet (R136: the document gives only its length): the symbol of a code. -/
opaque Config.customLegacyAlphabet : Nat → Byte → Byte

/-- FREE. The `k`-th text sound-line format (R316): the bytes a line stores in a 68-byte record. -/
opaque Config.customSfxLine : Nat → Bytes → List (Fin 68 × Byte)

/-- FREE. The `k`-th text music-line format (R317): the bytes a line stores in a 4-byte pattern. -/
opaque Config.customMusicLine : Nat → Bytes → List (Fin 4 × Byte)

/-- FREE. What the script engine answers to its `n`-th call when that call is the load of a script text
with this memory (R482; 93_implementation_defined.md U18), where the state holds no given answer. -/
opaque Config.freeLoadAnswer : Nat → Bytes → List Host.Cell → LoadAnswer

/-- FREE. What the script engine answers to its `n`-th call when that call is this hook with this memory
(R489, U18), where the state holds no given answer. -/
opaque Config.freeHookAnswer : Nat → Hook → List Host.Cell → HookAnswer

end Sys2Proof
end

