-- ==== Sys2Proof/WellFormed.lean ====
section
/-! DEFINITION. Which instructions the encodings can carry: the operand ranges of the stream tokens
(30_encoding.md R117 to R135; 42_inflate.md R230; 44_code_decompress.md R276 to R293). A command carries
any 32-bit word or none in each of its slots (R100), so every command is well formed. -/

namespace Sys2Proof

/-- `LEXT`: extra bits of the length symbols 257..285 (R121). -/
def lengthExtraBits : List Nat :=
  [0, 0, 0, 0, 0, 0, 0, 0, 1, 1, 1, 1, 2, 2, 2, 2, 3, 3, 3, 3, 4, 4, 4, 4, 5, 5, 5, 5, 0]

/-- `DEXT`: extra bits of the distance symbols 0..29 (R122). -/
def distExtraBits : List Nat :=
  [0, 0, 0, 0, 1, 1, 2, 2, 3, 3, 4, 4, 5, 5, 6, 6, 7, 7, 8, 8, 9, 9, 10, 10, 11, 11, 12, 12, 13, 13]

/-- A length/distance token (R230): a length symbol 257..285 and a distance symbol 0..29 (286, 287, 30 and
31 are illegal, R120, R122), each with extra bits of its own width. -/
def wfDfLen (lsym lextra dsym dextra : Nat) : Bool :=
  257 ≤ lsym && lsym ≤ 285 && lextra < 2 ^ lengthExtraBits.getD (lsym - 257) 0 &&
  dsym < 30 && dextra < 2 ^ distExtraBits.getD dsym 0

/-- A back-reference's copy length starts at 3 (R133). -/
def wfCopyLength (length : Nat) : Bool := 3 ≤ length

/-- A 10-bit reference whose offset is 1 (stored field 0) is the raw-run token, not a reference (R134). -/
def wfRef10Field (field : BitVec 10) : Bool := field != 0

/-- An alphabet code is 0x01..0x3B (R135, R292). -/
def wfLgSym (b0 : Byte) : Bool := 1 ≤ b0.toNat && b0.toNat ≤ 0x3B

/-- A legacy back-reference's first byte is 0x3C..0xFF (R135, R293). -/
def wfLgRef (b0 : Byte) : Bool := 0x3C ≤ b0.toNat

/-- Can the encodings of the spec carry this instruction? -/
def Instr.wf : Instr → Bool
  | .read8 .. | .read16 .. | .read32 .. | .write8 .. | .write16 .. | .write32 ..
  | .bulkCopy .. | .bulkFill .. => true
  | .reset | .loadCart .. | .run | .pause | .resume | .stop | .unload | .step
  | .queryError | .queryFps | .queryFrame => true
  | .setClip .. | .setCamera .. | .setColor .. | .setPalette .. | .setTransparent ..
  | .setFillPattern .. | .setCursor .. => true
  | .clear .. | .setPixel .. | .getPixel .. | .line .. | .rect .. | .rectFill .. | .circle ..
  | .circleFill .. | .ellipse .. | .ellipseFill .. => true
  | .sprite .. | .spriteScaled .. | .tileMap .. | .text .. => true
  | .sfx .. | .music .. | .setMasterVolume .. | .sample => true
  | .dfStored .. | .dfFixed .. | .dfDynamic .. | .dfReserved .. | .dfLit .. | .dfEob => true
  | .dfLen lsym lextra dsym dextra => wfDfLen lsym lextra dsym dextra
  | .fltNone | .fltSub | .fltUp | .fltAvg | .fltPaeth => true
  | .nfLit .. => true
  | .nfRef15 _ length => wfCopyLength length
  | .nfRef10 field length => wfRef10Field field && wfCopyLength length
  | .nfRef5 _ length => wfCopyLength length
  | .nfRaw => true
  | .lgEsc .. => true
  | .lgSym b0 => wfLgSym b0
  | .lgRef b0 _ => wfLgRef b0
  | .rawScript => true

end Sys2Proof
end

