-- ==== Sys2Proof/Decode.lean ====
section
/-! DEFINITION. The decoder, total on any input and rejecting by name, and after it the encoder, both
written from 30_encoding.md: Part A (the command port, R100, R101, R156) and Part B (the stream formats:
DEFLATE R112 to R122, filter bytes R124, script formats R130 to R138). -/

namespace Sys2Proof

/-- Why an input is not an instruction. -/
inductive Reject where
  /-- The port presents no header word yet (R100). -/
  | noHeader
  /-- Fewer operand words than the opcode has slots: the command is not yet complete (R100). -/
  | missingWords
  /-- The opcode is not in R101's table (R156). -/
  | reservedOpcode
  /-- Bits 15:8 of the header word are not zero (R156). -/
  | reservedHeaderBits
  /-- The presence mask has a bit for a slot the opcode does not have (R156). -/
  | reservedPresence
  /-- A bit or byte at or beyond the end of the stream is needed (R114, R130, R272, R290). -/
  | exhausted
  /-- A Huffman bit pattern with no symbol, or a symbol that is illegal where it stands (R120, R122, R221). -/
  | badSymbol
  /-- A new-format literal whose unary prefix is above 4 or whose index is above 255 (R132). -/
  | badIndex
  /-- A filter type byte above 4 (R124, R251). -/
  | badFilter
  deriving DecidableEq, Repr, Inhabited

/-! ## Part A. The command port -/

/-- The builder of one row of the opcode map: how many operand slots the opcode has, and the command made
of the operands (by slot number) and the data port. -/
structure OpRow where
  slots : Nat
  build : (Nat → Operand) → DataIn → Instr

/-- The cart source that stands on the data port of `load_cart`. A plain byte string is a cart image
without a save blob, and nothing is the empty image (R100, R480). -/
def DataIn.toCart : DataIn → CartSource
  | .empty => .image [] none
  | .bytes b => .image b none
  | .cart src => src

/-- The byte string that stands on the data port of `text` (R100, R408). -/
def DataIn.toText : DataIn → Bytes
  | .empty => []
  | .bytes b => b
  | .cart (.image file _) => file
  | .cart .readFailure => []

/-- The opcode map (R101). -/
def opRow : Nat → Option OpRow
  | 0x00 => some ⟨1, fun o _ => .read8 (o 0)⟩
  | 0x01 => some ⟨1, fun o _ => .read16 (o 0)⟩
  | 0x02 => some ⟨1, fun o _ => .read32 (o 0)⟩
  | 0x03 => some ⟨2, fun o _ => .write8 (o 0) (o 1)⟩
  | 0x04 => some ⟨2, fun o _ => .write16 (o 0) (o 1)⟩
  | 0x05 => some ⟨2, fun o _ => .write32 (o 0) (o 1)⟩
  | 0x06 => some ⟨3, fun o _ => .bulkCopy (o 0) (o 1) (o 2)⟩
  | 0x07 => some ⟨3, fun o _ => .bulkFill (o 0) (o 1) (o 2)⟩
  | 0x10 => some ⟨0, fun _ _ => .reset⟩
  | 0x11 => some ⟨0, fun _ d => .loadCart d.toCart⟩
  | 0x12 => some ⟨0, fun _ _ => .run⟩
  | 0x13 => some ⟨0, fun _ _ => .pause⟩
  | 0x14 => some ⟨0, fun _ _ => .resume⟩
  | 0x15 => some ⟨0, fun _ _ => .stop⟩
  | 0x16 => some ⟨0, fun _ _ => .unload⟩
  | 0x17 => some ⟨0, fun _ _ => .step⟩
  | 0x18 => some ⟨0, fun _ _ => .queryError⟩
  | 0x19 => some ⟨0, fun _ _ => .queryFps⟩
  | 0x1A => some ⟨0, fun _ _ => .queryFrame⟩
  | 0x20 => some ⟨4, fun o _ => .setClip (o 0) (o 1) (o 2) (o 3)⟩
  | 0x21 => some ⟨2, fun o _ => .setCamera (o 0) (o 1)⟩
  | 0x22 => some ⟨1, fun o _ => .setColor (o 0)⟩
  | 0x23 => some ⟨3, fun o _ => .setPalette (o 0) (o 1) (o 2)⟩
  | 0x24 => some ⟨2, fun o _ => .setTransparent (o 0) (o 1)⟩
  | 0x25 => some ⟨2, fun o _ => .setFillPattern (o 0) (o 1)⟩
  | 0x26 => some ⟨3, fun o _ => .setCursor (o 0) (o 1) (o 2)⟩
  | 0x30 => some ⟨1, fun o _ => .clear (o 0)⟩
  | 0x31 => some ⟨3, fun o _ => .setPixel (o 0) (o 1) (o 2)⟩
  | 0x32 => some ⟨2, fun o _ => .getPixel (o 0) (o 1)⟩
  | 0x33 => some ⟨5, fun o _ => .line (o 0) (o 1) (o 2) (o 3) (o 4)⟩
  | 0x34 => some ⟨5, fun o _ => .rect (o 0) (o 1) (o 2) (o 3) (o 4)⟩
  | 0x35 => some ⟨5, fun o _ => .rectFill (o 0) (o 1) (o 2) (o 3) (o 4)⟩
  | 0x36 => some ⟨4, fun o _ => .circle (o 0) (o 1) (o 2) (o 3)⟩
  | 0x37 => some ⟨4, fun o _ => .circleFill (o 0) (o 1) (o 2) (o 3)⟩
  | 0x38 => some ⟨5, fun o _ => .ellipse (o 0) (o 1) (o 2) (o 3) (o 4)⟩
  | 0x39 => some ⟨5, fun o _ => .ellipseFill (o 0) (o 1) (o 2) (o 3) (o 4)⟩
  | 0x40 => some ⟨7, fun o _ => .sprite (o 0) (o 1) (o 2) (o 3) (o 4) (o 5) (o 6)⟩
  | 0x41 => some ⟨10, fun o _ =>
      .spriteScaled (o 0) (o 1) (o 2) (o 3) (o 4) (o 5) (o 6) (o 7) (o 8) (o 9)⟩
  | 0x42 => some ⟨7, fun o _ => .tileMap (o 0) (o 1) (o 2) (o 3) (o 4) (o 5) (o 6)⟩
  | 0x43 => some ⟨3, fun o d => .text d.toText (o 0) (o 1) (o 2)⟩
  | 0x50 => some ⟨3, fun o _ => .sfx (o 0) (o 1) (o 2)⟩
  | 0x51 => some ⟨1, fun o _ => .music (o 0)⟩
  | 0x52 => some ⟨1, fun o _ => .setMasterVolume (o 0)⟩
  | 0x53 => some ⟨0, fun _ _ => .sample⟩
  | _ => none

/-- Bits 7:0 of a header word: the opcode (R100). -/
def headerOpcode (h : Word) : Nat := h.toNat % 256

/-- Bits 15:8 of a header word, which must be zero (R100). -/
def headerZero (h : Word) : Nat := h.toNat / 256 % 256

/-- Bits 31:16 of a header word: the presence mask (R100). -/
def headerMask (h : Word) : Nat := h.toNat / 65536

/-- The operand of slot `i`: its word when the presence mask says it is supplied; an unsupplied slot's word
is ignored (R100). -/
def slotOperand (pmask : Nat) (ops : List Word) (i : Nat) : Operand :=
  if pmask.testBit i then some (ops.getD i 0) else none

/-- Decode a command as it stands on the ports (R100, R101, R156). Words beyond the opcode's slots are no
part of the command. -/
def decodeCommand (r : Request) : Except Reject Instr :=
  match r.words with
  | [] => .error .noHeader
  | h :: ops =>
    if headerZero h ≠ 0 then .error .reservedHeaderBits
    else
      match opRow (headerOpcode h) with
      | none => .error .reservedOpcode
      | some row =>
        if headerMask h / 2 ^ row.slots ≠ 0 then .error .reservedPresence
        else if ops.length < row.slots then .error .missingWords
        else .ok (row.build (slotOperand (headerMask h) ops) r.data)

/-! ## Part B. The streams -/

/-- Bit `k` of a byte sequence, from the least significant bit of each byte (R114, R130); `none` at or
beyond its end. -/
def bitAt (b : Bytes) (k : Nat) : Option Bool := (b[k / 8]?).map fun x => x.getLsbD (k % 8)

/-- `getbits(n)` at bit position `pos` (R114, R130): the value, first bit least significant, and the
position after it; `none` when a bit at or beyond the end is needed. -/
def getBits (b : Bytes) : Nat → Nat → Option (Nat × Nat)
  | pos, 0 => some (0, pos)
  | pos, n + 1 =>
    match bitAt b pos with
    | none => none
    | some bit =>
      match getBits b (pos + 1) n with
      | none => none
      | some (v, pos') => some (bit.toNat + 2 * v, pos')

/-- `getBits` with exhaustion as a rejection. -/
def readBits (b : Bytes) (pos n : Nat) : Except Reject (Nat × Nat) :=
  match getBits b pos n with
  | none => .error .exhausted
  | some r => .ok r

/-! ### DEFLATE -/

/-- The number of codes of each length 0..15 of a list of code lengths (R220). -/
def countLengths (lengths : List Nat) : List Nat :=
  (List.range 16).map fun l => lengths.count l

/-- `left` of R220 over the counts of lengths 1, 2, …: doubled and reduced by each count in turn; the
first negative value is the answer (over-subscribed), otherwise the value after the last (0: complete,
above 0: incomplete). -/
def leftOver : List Nat → Int → Int
  | [], left => left
  | c :: cs, left => if 2 * left - c < 0 then 2 * left - c else leftOver cs (2 * left - c)

/-- The symbols of code length `l`, in increasing order. -/
def symbolsOfLength (lengths : List Nat) (l : Nat) : List Nat :=
  (List.range lengths.length).filter fun s => lengths.getD s 0 == l

/-- The table R220 builds: the counts, and the symbols ordered by length and then by number, which is where
the symbol offsets `offs` put them (R52: symbols ordered by code). The entries of `symbol[]` that R220 does not
write are not held (DESIGN CHOICE, log entry 42). -/
def huffOf (lengths : List Nat) : Huff where
  count := countLengths lengths
  symbol := (List.range' 1 15).flatMap (symbolsOfLength lengths)

/-- The result `left` of `construct` (R220): 0 when there are no codes at all. -/
def huffLeft (lengths : List Nat) : Int :=
  if lengths.count 0 = lengths.length then 0 else leftOver ((countLengths lengths).drop 1) 1

/-- R221: one Huffman code, read bit by bit, over the counts of the lengths still to be tried. Input
exhausted and a pattern with no symbol are told apart. -/
def huffDecodeFrom (t : Huff) (b : Bytes) : List Nat → Nat → Nat → Nat → Nat → Except Reject (Nat × Nat)
  | [], _, _, _, _ => .error .badSymbol
  | c :: cs, pos, code, first, index =>
    match bitAt b pos with
    | none => .error .exhausted
    | some bit =>
      let code := code + bit.toNat
      if code < first + c then
        match t.symbol[index + (code - first)]? with
        | none => .error .badSymbol
        | some s => .ok (s, pos + 1)
      else huffDecodeFrom t b cs (pos + 1) (2 * code) (2 * (first + c)) (index + c)

/-- `decode(T)` (R221) at bit position `pos`: the symbol and the position after its code. -/
def huffDecode (t : Huff) (b : Bytes) (pos : Nat) : Except Reject (Nat × Nat) :=
  huffDecodeFrom t b ((t.count.drop 1).take 15) pos 0 0 0

/-- `LBASE`: the base lengths of the symbols 257..285 (R121). -/
def lengthBase : List Nat :=
  [3, 4, 5, 6, 7, 8, 9, 10, 11, 13, 15, 17, 19, 23, 27, 31, 35, 43, 51, 59, 67, 83, 99, 115, 131, 163,
   195, 227, 258]

/-- `DBASE`: the base distances of the symbols 0..29 (R122). -/
def distBase : List Nat :=
  [1, 2, 3, 4, 5, 7, 9, 13, 17, 25, 33, 49, 65, 97, 129, 193, 257, 385, 513, 769, 1025, 1537, 2049, 3073,
   4097, 6145, 8193, 12289, 16385, 24577]

/-- The length a length symbol and its extra bits stand for (R121). -/
def copyLength (lsym lextra : Nat) : Nat := lengthBase.getD (lsym - 257) 0 + lextra

/-- The distance a distance symbol and its extra bits stand for (R122). -/
def copyDist (dsym dextra : Nat) : Nat := distBase.getD dsym 0 + dextra

/-- A DEFLATE block header (R112, R113): BFINAL, then BTYPE. -/
def decodeBlockHeader (b : Bytes) (pos : Nat) : Except Reject (Instr × Nat) := do
  let (bfinal, pos) ← readBits b pos 1
  let (btype, pos) ← readBits b pos 2
  let final := bfinal == 1
  match btype with
  | 0 => .ok (.dfStored final, pos)
  | 1 => .ok (.dfFixed final, pos)
  | 2 => .ok (.dfDynamic final, pos)
  | _ => .ok (.dfReserved final, pos)

/-- A token of a compressed block (R120 to R122, R226), coded with the two tables. -/
def decodeBlockToken (lencode distcode : Huff) (b : Bytes) (pos : Nat) : Except Reject (Instr × Nat) := do
  let (s, pos) ← huffDecode lencode b pos
  if s < 256 then .ok (.dfLit (BitVec.ofNat 8 s), pos)
  else if s = 256 then .ok (.dfEob, pos)
  else if 285 < s then .error .badSymbol
  else do
    let (lextra, pos) ← readBits b pos (lengthExtraBits.getD (s - 257) 0)
    let (d, pos) ← huffDecode distcode b pos
    if 30 ≤ d then .error .badSymbol
    else do
      let (dextra, pos) ← readBits b pos (distExtraBits.getD d 0)
      .ok (.dfLen s lextra d dextra, pos)

/-- The fixed literal/length code lengths (R117). -/
def fixedLitLengths : List Nat :=
  List.replicate 144 8 ++ List.replicate 112 9 ++ List.replicate 24 7 ++ List.replicate 8 8

/-- The fixed literal/length table (R224). -/
def fixedLencode : Huff := huffOf fixedLitLengths

/-- The fixed distance table (R224). -/
def fixedDistcode : Huff := huffOf (List.replicate 30 5)

/-- The order in which code-length code lengths are sent (R118). -/
def codeLengthOrder : List Nat := [16, 17, 18, 0, 8, 7, 9, 6, 10, 5, 11, 4, 12, 3, 13, 2, 14, 1, 15]

/-- `n` 3-bit code lengths (R118). -/
def readTriples (b : Bytes) : Nat → Nat → Except Reject (List Nat × Nat)
  | pos, 0 => .ok ([], pos)
  | pos, n + 1 => do
    let (v, pos) ← readBits b pos 3
    let (vs, pos) ← readTriples b pos n
    .ok (v :: vs, pos)

/-- The code lengths of the code-length alphabet in symbol order, unlisted ones 0 (R118, R225). -/
def clLengths (sent : List Nat) : List Nat :=
  (List.range 19).map fun sym => sent.getD (codeLengthOrder.idxOf sym) 0

/-- The run a code-length symbol 16, 17 or 18 stands for (R119): its repeat count base, its extra bits and
whether it repeats the previous length (else it is a run of zeros). -/
def repeatForm (s : Nat) : Nat × Nat × Bool :=
  if s = 16 then (3, 2, true) else if s = 17 then (3, 3, false) else (11, 7, false)

/-- The code-length loop of R225: code lengths read with the code-length code until there are `total` of
them; `acc` holds those read so far. The first argument bounds the iterations: each adds at least one. -/
def readCodeLengths (cl : Huff) (b : Bytes) (total : Nat) :
    Nat → Nat → List Nat → Except Reject (List Nat × Nat)
  | 0, pos, acc => .ok (acc, pos)
  | fuel + 1, pos, acc =>
    if total ≤ acc.length then .ok (acc, pos)
    else
      match huffDecode cl b pos with
      | .error e => .error e
      | .ok (s, pos) =>
        if s < 16 then readCodeLengths cl b total fuel pos (acc ++ [s])
        else
          let (base, extra, prev) := repeatForm s
          if prev ∧ acc = [] then .error .badSymbol
          else
            match readBits b pos extra with
            | .error e => .error e
            | .ok (k, pos) =>
              if total < acc.length + (base + k) then .error .badSymbol
              else
                readCodeLengths cl b total fuel pos
                  (acc ++ List.replicate (base + k) (if prev then acc.getLastD 0 else 0))

/-- May the code with these lengths be used (R225)? It is not over-subscribed, and an incomplete one
consists of a single code of length 1. -/
def acceptableCode (lengths : List Nat) : Bool :=
  huffLeft lengths == 0 ||
    (0 < huffLeft lengths && lengths.length == lengths.count 0 + lengths.count 1)

/-- `build_dynamic()` (R225): the literal/length and distance code lengths of a dynamic block header at bit
position `pos` (after its three header bits) and the position after it. -/
def readDynamic (b : Bytes) (pos : Nat) : Except Reject ((List Nat × List Nat) × Nat) := do
  let (hlit, pos) ← readBits b pos 5
  let (hdist, pos) ← readBits b pos 5
  let (hclen, pos) ← readBits b pos 4
  let nlen := hlit + 257
  let ndist := hdist + 1
  if 286 < nlen ∨ 30 < ndist then .error .badSymbol
  else do
    let (sent, pos) ← readTriples b pos (hclen + 4)
    let cl := clLengths sent
    if huffLeft cl ≠ 0 then .error .badSymbol
    else do
      let (lengths, pos) ← readCodeLengths (huffOf cl) b (nlen + ndist) (nlen + ndist) pos []
      if lengths.getD 256 0 = 0 then .error .badSymbol
      else if acceptableCode (lengths.take nlen) && acceptableCode (lengths.drop nlen) then
        .ok ((lengths.take nlen, lengths.drop nlen), pos)
      else .error .badSymbol

/-! ### Scanline filters -/

/-- A filter-type byte (R124). -/
def decodeFilter (ft : Nat) : Except Reject Instr :=
  match ft with
  | 0 => .ok .fltNone
  | 1 => .ok .fltSub
  | 2 => .ok .fltUp
  | 3 => .ok .fltAvg
  | 4 => .ok .fltPaeth
  | _ => .error .badFilter

/-! ### New-format tokens -/

/-- The unary prefix of a literal (R132, R276): the number of 1 bits before the first 0 bit, at most 4; a
fifth 1 bit is rejected as soon as it is read. The first argument is how many more may be read. -/
def readUnary (b : Bytes) : Nat → Nat → Nat → Except Reject (Nat × Nat)
  | left, pos, u =>
    match bitAt b pos with
    | none => .error .exhausted
    | some false => .ok (u, pos + 1)
    | some true =>
      match left with
      | 0 => .error .badIndex
      | left + 1 => readUnary b left (pos + 1) (u + 1)

/-- The length chain of a reference (R133): 3-bit parts while the part equals 7; the value is their sum.
The first argument bounds the parts by the bits there are. -/
def readChain (b : Bytes) : Nat → Nat → Except Reject (Nat × Nat)
  | 0, _ => .error .exhausted
  | fuel + 1, pos =>
    match readBits b pos 3 with
    | .error e => .error e
    | .ok (part, pos) =>
      if part = 7 then
        match readChain b fuel pos with
        | .error e => .error e
        | .ok (n, pos) => .ok (7 + n, pos)
      else .ok (part, pos)

/-- A new-format token (R131 to R134) at bit position `pos`. -/
def decodeNewFormat (b : Bytes) (pos : Nat) : Except Reject (Instr × Nat) := do
  let (h, pos) ← readBits b pos 1
  if h = 1 then do
    let (u, pos) ← readUnary b 4 pos 0
    let (field, pos) ← readBits b pos (4 + u)
    let index := field + (2 ^ u - 1) * 16
    if 255 < index then .error .badIndex else .ok (.nfLit (BitVec.ofNat 8 index), pos)
  else do
    let (s0, pos) ← readBits b pos 1
    if s0 = 0 then do
      let (field, pos) ← readBits b pos 15
      let (n, pos) ← readChain b (8 * b.length) pos
      .ok (.nfRef15 (BitVec.ofNat 15 field) (3 + n), pos)
    else do
      let (s1, pos) ← readBits b pos 1
      if s1 = 0 then do
        let (field, pos) ← readBits b pos 10
        if field = 0 then .ok (.nfRaw, pos)
        else do
          let (n, pos) ← readChain b (8 * b.length) pos
          .ok (.nfRef10 (BitVec.ofNat 10 field) (3 + n), pos)
      else do
        let (field, pos) ← readBits b pos 5
        let (n, pos) ← readChain b (8 * b.length) pos
        .ok (.nfRef5 (BitVec.ofNat 5 field) (3 + n), pos)

/-! ### Legacy codes -/

/-- A legacy code (R135, R290) at byte position `pos`. -/
def decodeLegacy (b : Bytes) (pos : Nat) : Except Reject (Instr × Nat) :=
  match b[pos]? with
  | none => .error .exhausted
  | some b0 =>
    if b0.toNat = 0 then
      match b[pos + 1]? with
      | none => .error .exhausted
      | some b1 => .ok (.lgEsc b1, pos + 2)
    else if b0.toNat ≤ 0x3B then .ok (.lgSym b0, pos + 1)
    else
      match b[pos + 1]? with
      | none => .error .exhausted
      | some b1 => .ok (.lgRef b0 b1, pos + 2)

/-- `LEGACY_ALPHABET` (R136). -/
def legacyAlphabet : Bytes :=
  [0x0A, 0x20, 0x30, 0x31, 0x32, 0x33, 0x34, 0x35, 0x36, 0x37, 0x38, 0x39, 0x61, 0x62, 0x63, 0x64, 0x65,
   0x66, 0x67, 0x68, 0x69, 0x6A, 0x6B, 0x6C, 0x6D, 0x6E, 0x6F, 0x70, 0x71, 0x72, 0x73, 0x74, 0x75, 0x76,
   0x77, 0x78, 0x79, 0x7A] ++
  [0x21, 0x23, 0x25, 0x28, 0x29, 0x7B, 0x7D, 0x5B, 0x5D, 0x3C, 0x3E, 0x2B, 0x3D, 0x2F, 0x2A, 0x3A, 0x3B,
   0x2E, 0x2C, 0x7E, 0x5F]

/-- A raw script region starts with a printable ASCII byte (R127, R138; printable is 0x20..0x7E, D25). -/
def printable (b0 : Byte) : Bool := 0x20 ≤ b0.toNat && b0.toNat ≤ 0x7E

/-! ## The host's question about one table row -/

/-- The eight bits of a byte in the opposite order: the table numbers a new-format pattern with its first
stream bit as its most significant one, the stream stores the first bit as the least significant. -/
def reverseByte (w : Nat) : Byte :=
  BitVec.ofNat 8 (((List.range 8).map fun i => (w / 2 ^ i % 2) * 2 ^ (7 - i)).sum)

/-- The request a command row's bits are: the header word, then zero operand words up to the longest
command (ten slots). -/
def tableRequest (w : Nat) : Request where
  words := (List.range 11).map fun i => BitVec.ofNat 32 (w / 2 ^ (32 * i))
  data := .empty

/-- The new-format stream bytes of an 8-bit table word, followed by zeros. -/
def tableStream (w : Nat) : Bytes := [reverseByte w, 0, 0, 0, 0]

/-- An `Except` as an `Option`. -/
def okOption {ε α : Type} : Except ε α → Option α
  | .ok a => some a
  | .error _ => none

/-- The instruction the decoder reads from an opcode-table row's bits. A row of more than 8 bits is a
command header (R100). A row of 8 bits is a scanline filter byte (0 to 4, R124) or else the pattern of a
new-format token, first stream bit highest (R131). The legacy escape's row (0x00, 8 bits) cannot be told
from the filter byte 0x00 by its bits: which of the two a byte is depends on the stage that reads it. -/
def decodeTableWord (nbits w : Nat) : Option Instr :=
  if 8 < nbits then okOption (decodeCommand (tableRequest w))
  else if w ≤ 4 then okOption (decodeFilter w)
  else (okOption (decodeNewFormat (tableStream w) 0)).map (·.1)

/-! ## The encoder -/

/-- The opcode of a command (R101); `none` for a stream token. -/
def Instr.opcode : Instr → Option Nat
  | .read8 .. => some 0x00
  | .read16 .. => some 0x01
  | .read32 .. => some 0x02
  | .write8 .. => some 0x03
  | .write16 .. => some 0x04
  | .write32 .. => some 0x05
  | .bulkCopy .. => some 0x06
  | .bulkFill .. => some 0x07
  | .reset => some 0x10
  | .loadCart .. => some 0x11
  | .run => some 0x12
  | .pause => some 0x13
  | .resume => some 0x14
  | .stop => some 0x15
  | .unload => some 0x16
  | .step => some 0x17
  | .queryError => some 0x18
  | .queryFps => some 0x19
  | .queryFrame => some 0x1A
  | .setClip .. => some 0x20
  | .setCamera .. => some 0x21
  | .setColor .. => some 0x22
  | .setPalette .. => some 0x23
  | .setTransparent .. => some 0x24
  | .setFillPattern .. => some 0x25
  | .setCursor .. => some 0x26
  | .clear .. => some 0x30
  | .setPixel .. => some 0x31
  | .getPixel .. => some 0x32
  | .line .. => some 0x33
  | .rect .. => some 0x34
  | .rectFill .. => some 0x35
  | .circle .. => some 0x36
  | .circleFill .. => some 0x37
  | .ellipse .. => some 0x38
  | .ellipseFill .. => some 0x39
  | .sprite .. => some 0x40
  | .spriteScaled .. => some 0x41
  | .tileMap .. => some 0x42
  | .text .. => some 0x43
  | .sfx .. => some 0x50
  | .music .. => some 0x51
  | .setMasterVolume .. => some 0x52
  | .sample => some 0x53
  | .dfStored .. | .dfFixed .. | .dfDynamic .. | .dfReserved .. | .dfLit .. | .dfEob | .dfLen .. => none
  | .fltNone | .fltSub | .fltUp | .fltAvg | .fltPaeth => none
  | .nfLit .. | .nfRef15 .. | .nfRef10 .. | .nfRef5 .. | .nfRaw => none
  | .lgEsc .. | .lgSym .. | .lgRef .. | .rawScript => none

/-- The operands of a command, slot by slot (R101). -/
def Instr.operands : Instr → List Operand
  | .read8 a | .read16 a | .read32 a => [a]
  | .write8 a v | .write16 a v | .write32 a v => [a, v]
  | .bulkCopy d s n => [d, s, n]
  | .bulkFill d v n => [d, v, n]
  | .reset | .loadCart _ | .run | .pause | .resume | .stop | .unload | .step => []
  | .queryError | .queryFps | .queryFrame => []
  | .setClip x y w h => [x, y, w, h]
  | .setCamera x y => [x, y]
  | .setColor c => [c]
  | .setPalette c0 c1 p => [c0, c1, p]
  | .setTransparent c t => [c, t]
  | .setFillPattern p t => [p, t]
  | .setCursor x y c => [x, y, c]
  | .clear c => [c]
  | .setPixel x y c => [x, y, c]
  | .getPixel x y => [x, y]
  | .line x0 y0 x1 y1 c | .rect x0 y0 x1 y1 c | .rectFill x0 y0 x1 y1 c => [x0, y0, x1, y1, c]
  | .circle x y r c | .circleFill x y r c => [x, y, r, c]
  | .ellipse x0 y0 x1 y1 c | .ellipseFill x0 y0 x1 y1 c => [x0, y0, x1, y1, c]
  | .sprite n x y w h fx fy => [n, x, y, w, h, fx, fy]
  | .spriteScaled sx sy sw sh dx dy dw dh fx fy => [sx, sy, sw, sh, dx, dy, dw, dh, fx, fy]
  | .tileMap a b sx sy cw ch l => [a, b, sx, sy, cw, ch, l]
  | .text _ x y c => [x, y, c]
  | .sfx n c o => [n, c, o]
  | .music n => [n]
  | .setMasterVolume v => [v]
  | .sample => []
  | .dfStored _ | .dfFixed _ | .dfDynamic _ | .dfReserved _ | .dfLit _ | .dfEob | .dfLen _ _ _ _ => []
  | .fltNone | .fltSub | .fltUp | .fltAvg | .fltPaeth => []
  | .nfLit _ | .nfRef15 _ _ | .nfRef10 _ _ | .nfRef5 _ _ | .nfRaw => []
  | .lgEsc _ | .lgSym _ | .lgRef _ _ | .rawScript => []

/-- The data port content of a command (R100). -/
def Instr.dataPort : Instr → DataIn
  | .loadCart src => .cart src
  | .text str _ _ _ => .bytes str
  | .read8 .. | .read16 .. | .read32 .. | .write8 .. | .write16 .. | .write32 ..
  | .bulkCopy .. | .bulkFill .. => .empty
  | .reset | .run | .pause | .resume | .stop | .unload | .step
  | .queryError | .queryFps | .queryFrame => .empty
  | .setClip .. | .setCamera .. | .setColor .. | .setPalette .. | .setTransparent ..
  | .setFillPattern .. | .setCursor .. => .empty
  | .clear .. | .setPixel .. | .getPixel .. | .line .. | .rect .. | .rectFill .. | .circle ..
  | .circleFill .. | .ellipse .. | .ellipseFill .. => .empty
  | .sprite .. | .spriteScaled .. | .tileMap .. => .empty
  | .sfx .. | .music .. | .setMasterVolume .. | .sample => .empty
  | .dfStored .. | .dfFixed .. | .dfDynamic .. | .dfReserved .. | .dfLit .. | .dfEob | .dfLen .. => .empty
  | .fltNone | .fltSub | .fltUp | .fltAvg | .fltPaeth => .empty
  | .nfLit .. | .nfRef15 .. | .nfRef10 .. | .nfRef5 .. | .nfRaw => .empty
  | .lgEsc .. | .lgSym .. | .lgRef .. | .rawScript => .empty

/-- The presence mask of an operand list: bit `i` is 1 iff operand `i` is supplied (R100). -/
def presenceMask : List Operand → Nat
  | [] => 0
  | o :: os => o.isSome.toNat + 2 * presenceMask os

/-- The words and data of a command with this opcode (R100); an unsupplied slot's word is sent as 0. -/
def encodeCommand (op : Nat) (i : Instr) : Request where
  words := BitVec.ofNat 32 (op + 65536 * presenceMask i.operands) ::
    i.operands.map fun o => o.getD 0
  data := i.dataPort

/-- A field of `n` bits in stream order, low bit first. -/
def fieldBits : Nat → Nat → List Bool
  | 0, _ => []
  | n + 1, v => v.testBit 0 :: fieldBits n (v / 2)

/-- A code of `n` bits in stream order, most significant bit first (R116). -/
def codeBits (n v : Nat) : List Bool := (fieldBits n v).reverse

/-- The length and the value of the `p`-th code of a canonical Huffman code (R116), over the counts of the
lengths from `l` on: `first` is the first code of length `l`. -/
def codeAt : List Nat → Nat → Nat → Nat → Option (Nat × Nat)
  | [], _, _, _ => none
  | c :: cs, l, first, p => if p < c then some (l, first + p) else codeAt cs (l + 1) (2 * (first + c)) (p - c)

/-- The bits of a symbol's code, in stream order; `none` when the symbol has no code. -/
def symbolBits (t : Huff) (s : Nat) : Option (List Bool) :=
  if s ∈ t.symbol then
    (codeAt ((t.count.drop 1).take 15) 1 0 (t.symbol.idxOf s)).map fun q => codeBits q.1 q.2
  else none

/-- The header bits of a block (R112): BFINAL, then BTYPE low bit first. -/
def headerBits (final : Bool) (btype : Nat) : List Bool := final :: fieldBits 2 btype

/-- The length chain of a copy (R133): parts of 7 and then a part below 7. The first argument bounds the
parts. -/
def chainBits : Nat → Nat → List Bool
  | 0, _ => []
  | fuel + 1, n => if 7 ≤ n then fieldBits 3 7 ++ chainBits fuel (n - 7) else fieldBits 3 n

/-- The unary prefix length of a literal index (R132). -/
def literalPrefix (index : Nat) : Nat :=
  if index < 16 then 0 else if index < 48 then 1 else if index < 112 then 2
  else if index < 240 then 3 else 4

/-- A new-format literal (R132). -/
def literalBits (index : Nat) : List Bool :=
  let u := literalPrefix index
  true :: (List.replicate u true ++ [false] ++ fieldBits (4 + u) (index - (2 ^ u - 1) * 16))

/-- A new-format reference (R133): header bit, selector, offset field, length chain. -/
def refBits (selector : List Bool) (width field length : Nat) : List Bool :=
  false :: (selector ++ fieldBits width field ++ chainBits (length - 2) (length - 3))

/-- The bits of a stream token under the two Huffman tables in force, in stream order; `none` for a command,
for `raw.script` (the region itself, R138) and for a symbol the tables give no code. A token whose rule
goes on reading the stream (a stored or dynamic block, a raw run, a scanline) is encoded by its first bits,
as in spec/opcode_table.json. -/
def tokenBits (lencode distcode : Huff) : Instr → Option (List Bool)
  | .dfStored final => some (headerBits final 0)
  | .dfFixed final => some (headerBits final 1)
  | .dfDynamic final => some (headerBits final 2)
  | .dfReserved final => some (headerBits final 3)
  | .dfLit sym => symbolBits lencode sym.toNat
  | .dfEob => symbolBits lencode 256
  | .dfLen lsym lextra dsym dextra =>
    match symbolBits lencode lsym, symbolBits distcode dsym with
    | some l, some d =>
      some (l ++ fieldBits (lengthExtraBits.getD (lsym - 257) 0) lextra ++ d ++
        fieldBits (distExtraBits.getD dsym 0) dextra)
    | _, _ => none
  | .fltNone => some (fieldBits 8 0)
  | .fltSub => some (fieldBits 8 1)
  | .fltUp => some (fieldBits 8 2)
  | .fltAvg => some (fieldBits 8 3)
  | .fltPaeth => some (fieldBits 8 4)
  | .nfLit index => some (literalBits index.toNat)
  | .nfRef15 field length => some (refBits [false] 15 field.toNat length)
  | .nfRef10 field length => some (refBits [true, false] 10 field.toNat length)
  | .nfRef5 field length => some (refBits [true, true] 5 field.toNat length)
  | .nfRaw => some (false :: true :: false :: fieldBits 10 0)
  | .lgEsc b1 => some (fieldBits 8 0 ++ fieldBits 8 b1.toNat)
  | .lgSym b0 => some (fieldBits 8 b0.toNat)
  | .lgRef b0 b1 => some (fieldBits 8 b0.toNat ++ fieldBits 8 b1.toNat)
  | .rawScript => none
  | .read8 .. | .read16 .. | .read32 .. | .write8 .. | .write16 .. | .write32 ..
  | .bulkCopy .. | .bulkFill .. => none
  | .reset | .loadCart .. | .run | .pause | .resume | .stop | .unload | .step
  | .queryError | .queryFps | .queryFrame => none
  | .setClip .. | .setCamera .. | .setColor .. | .setPalette .. | .setTransparent ..
  | .setFillPattern .. | .setCursor .. => none
  | .clear .. | .setPixel .. | .getPixel .. | .line .. | .rect .. | .rectFill .. | .circle ..
  | .circleFill .. | .ellipse .. | .ellipseFill .. => none
  | .sprite .. | .spriteScaled .. | .tileMap .. | .text .. => none
  | .sfx .. | .music .. | .setMasterVolume .. | .sample => none

/-- What the encoder writes: the request of a command, or the stream bits of a token. -/
inductive Encoded where
  | request (r : Request)
  | stream (bits : List Bool)
  deriving DecidableEq, Repr

/-- The encoding of an instruction, a token's under the given Huffman tables; `none` where the spec gives
it none (`tokenBits`). -/
def encode (lencode distcode : Huff) (i : Instr) : Option Encoded :=
  match i.opcode with
  | some op => some (.request (encodeCommand op i))
  | none => (tokenBits lencode distcode i).map .stream

/-- Does the byte sequence carry these bits from bit position `pos` on? -/
def carries (b : Bytes) (pos : Nat) : List Bool → Bool
  | [] => true
  | bit :: bits => bitAt b pos == some bit && carries b (pos + 1) bits

end Sys2Proof
end

