-- ==== Sys2Proof/Machine/Memory.lean ====
section
/-! DEFINITION. The 32 KiB memory as plain data (10_state.md R21, 20_memory.md R70): a list of (address,
byte) cells in one canonical form, with one read and two writes. An address the list does not name reads
as zero, which is what `reset` leaves there (70_reset_and_hazards.md R512). -/

namespace Sys2Proof.Machine

/-- The memory: cells with strictly rising addresses below 0x8000, none of them zero. -/
abbrev Memory := List Host.Cell

/-- `RAM_SIZE` (00_scope.md R9). -/
def ramSize : Nat := 0x8000

/-- The byte at an address; an unlisted one reads as zero (R512: reset zeroes the region). -/
def Memory.get : Memory → Nat → Byte
  | [], _ => 0
  | (k, v) :: rest, a => if k = a then v else Memory.get rest a

/-- A cell put before a memory, or nothing when the byte is what an unlisted address reads as. -/
def consCell (a : Nat) (b : Byte) (m : Memory) : Memory := if b = 0 then m else (a, b) :: m

/-- Store one byte, keeping the canonical form. -/
def Memory.set : Memory → Nat → Byte → Memory
  | [], a, b => consCell a b []
  | (k, v) :: rest, a, b =>
    if a < k then consCell a b ((k, v) :: rest)
    else if a = k then consCell a b rest
    else (k, v) :: Memory.set rest a b

/-- The cells of a byte sequence laid out from an address on. -/
def cellsFrom : Nat → Bytes → Memory
  | _, [] => []
  | a, b :: rest => consCell a b (cellsFrom (a + 1) rest)

/-- Store a byte sequence from an address on, whole. -/
def Memory.setBlock (m : Memory) (a : Nat) (bs : Bytes) : Memory :=
  m.filter (fun c => c.1 < a) ++ cellsFrom a bs ++ m.filter (fun c => a + bs.length ≤ c.1)

/-- The bytes from an address on. -/
def Memory.getBlock (m : Memory) (a n : Nat) : Bytes := (List.range n).map fun i => m.get (a + i)

/-- Are the cells in canonical form, with addresses from `lo` on and below 0x8000? -/
def Memory.wfFrom : Nat → Memory → Bool
  | _, [] => true
  | lo, (k, v) :: rest => lo ≤ k && k < ramSize && v != 0 && Memory.wfFrom (k + 1) rest

/-- The canonical form: addresses strictly rising and below 0x8000, no zero byte listed. -/
def Memory.wf (m : Memory) : Bool := Memory.wfFrom 0 m

end Sys2Proof.Machine
end

