-- ==== Sys2Proof/Machine/State.lean ====
section
/-! DEFINITION. The machine's state as plain data: everything 10_state.md names (R21 memory with the
memory-mapped draw-state and hardware-state blocks in it, R44 to R46 synthesizer, R50 to R54 decoder, R60
controller), the configuration record (00_scope.md R10), and the ports (30_encoding.md R100); the reasons a
step can stop; and the state after reset (R65, 70_reset_and_hazards.md R512). -/

namespace Sys2Proof.Machine

/-- Load-error cause codes 0 to 8 (60_exceptions.md R472). -/
inductive Cause where
  | noError
  | badContainer
  | badPng
  | unsupportedPng
  | tooLarge
  | badDeflate
  | badFilter
  | badCodeStream
  | ioError
  deriving DecidableEq, Repr, Inhabited

/-- The registers of one synthesizer channel (R44). `sfxIdx = none` is the spec's -1: the channel is idle.
`sfxIdx` and `noteIdx` have exactly the ranges R44 gives (-1..63 and 0..31). -/
structure Channel where
  sfxIdx : Option (Fin 64)
  noteIdx : Fin 32
  tickCtr : Word
  samplesPerTick : Word
  phase : Word
  phaseInc : Word
  freq : Word
  wave : BitVec 3
  vol : BitVec 3
  effect : BitVec 3
  custom : Bool
  lfsr : Half
  deriving DecidableEq, Repr, Inhabited

/-- The four channels (R40). -/
structure Channels where
  ch0 : Channel
  ch1 : Channel
  ch2 : Channel
  ch3 : Channel
  deriving DecidableEq, Repr, Inhabited

/-- Pattern registers (R45); `pattern = none` is the spec's -1. -/
structure Music where
  pattern : Option (Fin 64)
  tick : Word
  loop : Bool
  deriving DecidableEq, Repr, Inhabited

/-- Cart metadata registers (R54). -/
structure Cart where
  valid : Bool
  version : Byte
  codeLen : Nat
  deriving DecidableEq, Repr, Inhabited

/-- The lifecycle states (R483). -/
inductive Lifecycle where
  | stopped
  | running
  | paused
  | error
  deriving DecidableEq, Repr, Inhabited

/-- The two frame rates (R60). -/
inductive Fps where
  | fps30
  | fps60
  deriving DecidableEq, Repr, Inhabited

/-- Controller registers (R60). `errorMsg` is the uninterpreted message of a script error. -/
structure Controller where
  state : Lifecycle
  frame : Word
  fps : Fps
  hasInit : Bool
  hasUpdate : Bool
  hasUpdate60 : Bool
  hasDraw : Bool
  committed : Bool
  errorMsg : Bytes
  deriving DecidableEq, Repr, Inhabited

/-- Which decoder stage is reading its stream (41_png_container.md R190): what the next token is fetched
as. `inflateDone` and `scriptDone` are the moments after a final block and after the script's last token. -/
inductive Stage where
  | idle
  | blockHeader
  | blockTokens
  | inflateDone
  | scanlines
  | newFormat
  | legacy
  | rawScript
  | scriptDone
  deriving DecidableEq, Repr, Inhabited

/-- Decoder working state (R50 to R53). `inPos` counts bits in the inflate and new-format stages and bytes
in the scanline and legacy stages (R50); each output cursor `out_pos` is the length of the stage's output
buffer. `script` is the script region S (R261), `sav` the save blob a running load still has to apply. -/
structure Decoder where
  stage : Stage
  inPos : Nat
  file : Bytes
  idat : Bytes
  imgW : Nat
  imgH : Nat
  raw : Bytes
  pix : Bytes
  payload : Bytes
  script : Bytes
  codeOut : Bytes
  bfinal : Bool
  lencode : Huff
  distcode : Huff
  lengths : List Nat
  mtf : Bytes
  limit : Nat
  sav : Option Bytes
  deriving DecidableEq, Repr, Inhabited

/-- The machine. `cfg` is the configuration, which nothing writes. `port` is what the agents have issued,
oldest first, in the order in which it takes effect: commands of the command port and sample requests
(header 0x53) of the sample port, interleaved as the schedule has them (20_memory.md R91, R93). `result` is
what the last command delivered on the result port. `sampleOut` is the sequence of samples delivered on the
sample port (R47, 70_reset_and_hazards.md R536), oldest first, those of sample steps inside a hook among
them; no command reads, shortens or clears it (DESIGN CHOICE, log entry 37). `loadAnswers` and `hookAnswers` are the script engine's answers still to come; `engineCalls` counts its calls. -/
structure State where
  cfg : Config
  mem : Memory
  channels : Channels
  mus : Music
  masterVol : Byte
  cart : Cart
  errCause : Cause
  vm : Controller
  dec : Decoder
  port : List Request
  result : Option Word
  sampleOut : List Half
  loadAnswers : List LoadAnswer
  hookAnswers : List HookAnswer
  engineCalls : Nat
  deriving DecidableEq, Repr, Inhabited

/-- The faults. -/
inductive Fault where
  /-- Raised by a stream token that is executed while its decoder stage is not the one running, which no
  fetch does: outside a load the decoder's buffers are unspecified and a read of them has no value (R55).
  Safe. -/
  | tokenOutsideStage
  /-- Raised by a scanline token when `raw` does not hold the whole line, which no load brings about: the
  bytes beyond what inflate produced are unspecified (R55). Safe. -/
  | unspecifiedBuffer
  deriving DecidableEq, Repr, Inhabited

/-- The refusals. -/
inductive Refusal where
  /-- Raised by an arm of `exec` whose instruction has no meaning yet; no arm of this model is such. Safe. -/
  | notModelled (mnemonic : String)
  deriving DecidableEq, Repr, Inhabited

/-- The outcome of an instruction or of a step. -/
abbrev Out := Host.Outcome State Fault Refusal

/-- A channel after reset (R44, R512), with this noise seed. -/
def Channel.atReset (seed : Half) : Channel where
  sfxIdx := none
  noteIdx := 0
  tickCtr := 0
  samplesPerTick := 0
  phase := 0
  phaseInc := 0
  freq := 0
  wave := 0
  vol := 0
  effect := 0
  custom := false
  lfsr := seed

/-- The channels after reset. -/
def Channels.atReset (seed : Half) : Channels where
  ch0 := Channel.atReset seed
  ch1 := Channel.atReset seed
  ch2 := Channel.atReset seed
  ch3 := Channel.atReset seed

/-- The pattern registers after reset (R45). -/
def Music.atReset : Music where
  pattern := none
  tick := 0
  loop := false

/-- The cart registers after reset (R54). -/
def Cart.atReset : Cart where
  valid := false
  version := 0
  codeLen := 0

/-- The controller registers after reset (R60, R512). -/
def Controller.atReset : Controller where
  state := .stopped
  frame := 0
  fps := .fps30
  hasInit := false
  hasUpdate := false
  hasUpdate60 := false
  hasDraw := false
  committed := false
  errorMsg := []

/-- The decoder after reset: no stage runs; the buffers, which R55 leaves unspecified, are empty. -/
def Decoder.atReset : Decoder where
  stage := .idle
  inPos := 0
  file := []
  idat := []
  imgW := 0
  imgH := 0
  raw := []
  pix := []
  payload := []
  script := []
  codeOut := []
  bfinal := false
  lencode := ⟨[], []⟩
  distcode := ⟨[], []⟩
  lengths := []
  mtf := []
  limit := 0
  sav := none

/-- The memory after reset with the default configuration and empty save slots (R65, R514): the draw
palette, the screen palette, the clip rectangle, the pen and the remap registers. -/
def resetMemory : Memory :=
  [(0x5F00, 0x10), (0x5F01, 1), (0x5F02, 2), (0x5F03, 3), (0x5F04, 4), (0x5F05, 5), (0x5F06, 6), (0x5F07, 7),
   (0x5F08, 8), (0x5F09, 9), (0x5F0A, 10), (0x5F0B, 11), (0x5F0C, 12), (0x5F0D, 13), (0x5F0E, 14), (0x5F0F, 15)] ++
  [(0x5F11, 1), (0x5F12, 2), (0x5F13, 3), (0x5F14, 4), (0x5F15, 5), (0x5F16, 6), (0x5F17, 7),
   (0x5F18, 8), (0x5F19, 9), (0x5F1A, 10), (0x5F1B, 11), (0x5F1C, 12), (0x5F1D, 13), (0x5F1E, 14), (0x5F1F, 15)] ++
  [(0x5F22, 128), (0x5F23, 128), (0x5F25, 6), (0x5F55, 0x60), (0x5F56, 0x20), (0x5F57, 0x80)]

/-- The machine right after the first `reset` (R512; R510 takes the state of R512 with any save slots as
the start): the default configuration, nothing issued on the ports, no answer given. -/
def State.reset : State where
  cfg := Config.default
  mem := resetMemory
  channels := Channels.atReset 0xACE1
  mus := Music.atReset
  masterVol := 255
  cart := Cart.atReset
  errCause := .noError
  vm := Controller.atReset
  dec := Decoder.atReset
  port := []
  result := none
  sampleOut := []
  loadAnswers := []
  hookAnswers := []
  engineCalls := 0

end Sys2Proof.Machine
end

