-- ==== Sys2Proof/Machine/Ops.lean ====
section
/-! DEFINITION. The named operations over the state: memory access (20_memory.md R76 to R79), block writes
(40_memory_ops.md R170, R172), the pixel helpers (R180, R181), the typed views of the draw-state and
hardware-state blocks (00_scope.md R15, 10_state.md R31, R36), the ports, the channel file, the two errors
(60_exceptions.md R474, R491) and the reset of the core (70_reset_and_hazards.md R512). -/

namespace Sys2Proof.Machine

/-! ## Regions (10_state.md R23) -/

/-- `GFX`: the sprite sheet. -/
def gfxBase : Nat := 0x0000
/-- `GFX_SHARED`: the sheet's upper half, which is also map rows 32 to 63. -/
def gfxSharedBase : Nat := 0x1000
/-- `MAP`: map rows 0 to 31. -/
def mapBase : Nat := 0x2000
/-- `FLAGS`: the sprite flags. -/
def flagsBase : Nat := 0x3000
/-- `SONG`: the song table. -/
def songBase : Nat := 0x3100
/-- `SFX`: the sound-effect table. -/
def sfxBase : Nat := 0x3200
/-- `PERSIST`: the persistent save slots, 256 bytes. -/
def persistBase : Nat := 0x5E00
/-- The first address after `PERSIST`. -/
def persistEnd : Nat := 0x5F00
/-- `SCREEN`: the framebuffer. -/
def screenBase : Nat := 0x6000

/-! ## Single accesses -/

/-- The same state with another memory. -/
def State.withMem (s : State) (m : Memory) : State := { s with mem := m }

/-- `RAM[a]`. -/
def State.peek (s : State) (a : Nat) : Byte := s.mem.get a

/-- `RAM[a] <- b`, for an address of the memory; an address beyond it is not written (R79, R80). -/
def State.poke (s : State) (a : Nat) (b : Byte) : State :=
  if a < ramSize then s.withMem (s.mem.set a b) else s

/-- Is an access of `n` bytes at `addr` in range (R76)? -/
def inRange (addr : Int) (n : Nat) : Bool := 0 ≤ addr && addr + n ≤ 0x8000

/-- The little-endian value of `n` bytes from an address on (R72, R78). -/
def State.readLE (s : State) : Nat → Nat → Nat
  | _, 0 => 0
  | a, n + 1 => (s.peek a).toNat + 256 * s.readLE (a + 1) n

/-- `MemRead(addr, n)` (R78): the little-endian value, or 0 when the access is not wholly in range. -/
def State.memRead (s : State) (addr : Int) (n : Nat) : Nat :=
  if inRange addr n then s.readLE addr.toNat n else 0

/-- The `n` low bytes of a value, lowest first (R72, R79). -/
def leBytes : Nat → Nat → Bytes
  | 0, _ => []
  | n + 1, v => BitVec.ofNat 8 v :: leBytes n (v / 256)

/-- Bytes stored one by one from an address on. -/
def State.pokeAll (s : State) : Nat → Bytes → State
  | _, [] => s
  | a, b :: bs => (s.poke a b).pokeAll (a + 1) bs

/-- `MemWrite(addr, n, v)` (R79): the `n` low bytes of `v`, or nothing when the access is not wholly in
range. -/
def State.memWrite (s : State) (addr : Int) (n : Nat) (v : Word) : State :=
  if inRange addr n then s.pokeAll addr.toNat (leBytes n v.toNat) else s

/-! ## Block writes -/

/-- A byte sequence stored from an address on, whole; one that would pass the end of memory is not stored
(the callers clamp first, R170, R172). -/
def State.storeBlock (s : State) (a : Nat) (bs : Bytes) : State :=
  if a + bs.length ≤ ramSize then s.withMem (s.mem.setBlock a bs) else s

/-! ## Pixel helpers -/

/-- Is (x, y) one of the 128 by 128 pixels of a sheet or of the screen? -/
def onSheet (x y : Int) : Bool := 0 ≤ x && x < 128 && 0 ≤ y && y < 128

/-- The address of the byte that holds pixel (x, y) of the sheet or screen at `base` (R24, R29). -/
def pixelAddr (base : Nat) (x y : Int) : Nat := base + (y * 64 + x / 2).toNat

/-- `pget_raw(base, x, y)` (R180): low nibble for even x, high nibble for odd x, 0 off the sheet. -/
def State.pget (s : State) (base : Nat) (x y : Int) : BitVec 4 :=
  if onSheet x y then
    let b := s.peek (pixelAddr base x y)
    if x % 2 = 0 then b.extractLsb' 0 4 else b.extractLsb' 4 4
  else 0

/-- A byte with the nibble of an even (low) or odd (high) pixel replaced. -/
def setNibble (b : Byte) (x : Int) (c : BitVec 4) : Byte :=
  if x % 2 = 0 then b.extractLsb' 4 4 ++ c else c ++ b.extractLsb' 0 4

/-- `pset_raw(base, x, y, c)` (R181): only the addressed nibble changes; off the sheet nothing does. -/
def State.pset (s : State) (base : Nat) (x y : Int) (c : BitVec 4) : State :=
  if onSheet x y then
    s.poke (pixelAddr base x y) (setNibble (s.peek (pixelAddr base x y)) x c)
  else s

/-! ## Typed views (R15) -/

/-- A 16-bit field, little-endian (R31, R72). -/
def State.peek16 (s : State) (a : Nat) : Half := s.peek (a + 1) ++ s.peek a

/-- Store a 16-bit field, little-endian. -/
def State.poke16 (s : State) (a : Nat) (v : Half) : State :=
  (s.poke a (v.extractLsb' 0 8)).poke (a + 1) (v.extractLsb' 8 8)

/-- `ds.draw_pal[c]`. -/
def State.drawPal (s : State) (c : BitVec 4) : Byte := s.peek (s.cfg.layout.drawPal + c.toNat)
/-- `ds.screen_pal[c]`. -/
def State.screenPal (s : State) (c : BitVec 4) : Byte := s.peek (s.cfg.layout.screenPal + c.toNat)
/-- `ds.clip_x0`. -/
def State.clipX0 (s : State) : Byte := s.peek s.cfg.layout.clipX0
/-- `ds.clip_y0`. -/
def State.clipY0 (s : State) : Byte := s.peek s.cfg.layout.clipY0
/-- `ds.clip_x1`. -/
def State.clipX1 (s : State) : Byte := s.peek s.cfg.layout.clipX1
/-- `ds.clip_y1`. -/
def State.clipY1 (s : State) : Byte := s.peek s.cfg.layout.clipY1
/-- `ds.pen`. -/
def State.pen (s : State) : Byte := s.peek s.cfg.layout.pen
/-- `ds.cursor_x`. -/
def State.cursorX (s : State) : Byte := s.peek s.cfg.layout.cursorX
/-- `ds.cursor_y`. -/
def State.cursorY (s : State) : Byte := s.peek s.cfg.layout.cursorY
/-- `ds.camera_x`, signed. -/
def State.cameraX (s : State) : Int := (s.peek16 s.cfg.layout.cameraX).toInt
/-- `ds.camera_y`, signed. -/
def State.cameraY (s : State) : Int := (s.peek16 s.cfg.layout.cameraY).toInt
/-- `ds.fillp`. -/
def State.fillp (s : State) : Half := s.peek16 s.cfg.layout.fillp
/-- `ds.fillp_trans`. -/
def State.fillpTrans (s : State) : Byte := s.peek s.cfg.layout.fillpTrans
/-- `ds.line_x`, signed. -/
def State.lineX (s : State) : Int := (s.peek16 s.cfg.layout.lineX).toInt
/-- `ds.line_y`, signed. -/
def State.lineY (s : State) : Int := (s.peek16 s.cfg.layout.lineY).toInt
/-- `hw.bitmask`. -/
def State.bitmask (s : State) : Byte := s.peek s.cfg.layout.bitmask

/-! ## Result and sample ports -/

/-- The command delivers a word on the result port (R100). -/
def State.returns (s : State) (w : Word) : State := { s with result := some w }

/-- The command returns nothing (R101, result "none"). -/
def State.noResult (s : State) : State := { s with result := none }

/-- A required operand is unsupplied, or the encoding is reserved: a no-op that returns 0 (R101, R156). -/
def State.ignored (s : State) : State := s.returns 0

/-! ## The channel file -/

/-- `ch[c]`. -/
def Channels.get (cs : Channels) : Fin 4 → Channel
  | 0 => cs.ch0
  | 1 => cs.ch1
  | 2 => cs.ch2
  | 3 => cs.ch3

/-- `ch[c] <- v`. -/
def Channels.put (cs : Channels) (c : Fin 4) (v : Channel) : Channels :=
  match c with
  | 0 => { cs with ch0 := v }
  | 1 => { cs with ch1 := v }
  | 2 => { cs with ch2 := v }
  | 3 => { cs with ch3 := v }

/-! ## Errors -/

/-- The number of a cause code (R472). -/
def Cause.code : Cause → Nat
  | .noError => 0
  | .badContainer => 1
  | .badPng => 2
  | .unsupportedPng => 3
  | .tooLarge => 4
  | .badDeflate => 5
  | .badFilter => 6
  | .badCodeStream => 7
  | .ioError => 8

/-- The same state with the decoder's state changed. -/
def State.withDec (s : State) (d : Decoder) : State := { s with dec := d }

/-- `raise LoadError(cause)` (R474), the one error entry of this hardware (R471: no state is saved, no mode
changes and control goes nowhere, so nothing returns from it): the cause is recorded, the cart marked
invalid with script length 0, and the running load ends with the sentinel as its result. Everything else
keeps the value it had. -/
def State.raiseLoadError (s : State) (cause : Cause) : State :=
  { s with
    errCause := cause
    cart := { s.cart with valid := false, codeLen := 0 }
    dec := { s.dec with stage := .idle }
    result := some (BitVec.ofInt 32 s.cfg.errSentinel) }

/-- A ScriptError (R491): the controller goes to Error and keeps the message. -/
def State.raiseScriptError (s : State) (msg : Bytes) : State :=
  { s with vm := { s.vm with state := .error, errorMsg := msg } }

/-! ## Reset -/

/-- The draw palette, screen palette, clip rectangle and pen defaults (R514), as (address, byte) pairs. -/
def paletteDefaults (l : Layout) : List (Nat × Byte) :=
  (l.drawPal, 0x10) :: (List.range' 1 15).map (fun i => (l.drawPal + i, BitVec.ofNat 8 i)) ++
    (List.range 16).map fun i => (l.screenPal + i, BitVec.ofNat 8 i)

/-- The full-screen clip rectangle (R514). -/
def clipDefaults (l : Layout) : List (Nat × Byte) :=
  [(l.clipX0, 0), (l.clipY0, 0), (l.clipX1, 128), (l.clipY1, 128)]

/-- The remap registers' defaults (R514). -/
def remapDefaults (l : Layout) : List (Nat × Byte) :=
  [(l.remapGfx, 0x00), (l.remapScreen, 0x60), (l.remapMap, 0x20), (l.mapWidth, 0x80)]

/-- Store a list of (address, byte) pairs in order. -/
def State.pokePairs (s : State) : List (Nat × Byte) → State
  | [] => s
  | (a, b) :: rest => (s.poke a b).pokePairs rest

/-- The memory with every byte zero except the save slots (R512, R513). -/
def keepPersist (m : Memory) : Memory := m.filter fun c => persistBase ≤ c.1 && c.1 < persistEnd

/-- The memory part of `reset` (R512 to R514): zeroing, then the defaults. -/
def State.resetMem (s : State) : State :=
  (s.withMem (keepPersist s.mem)).pokePairs
    (paletteDefaults s.cfg.layout ++ clipDefaults s.cfg.layout ++
      [(s.cfg.layout.pen, s.cfg.defaultPen)] ++ remapDefaults s.cfg.layout)

/-- `reset` (R512): memory, channels, pattern registers, master volume, cart and error registers, hook
flags, counters and lifecycle state at their defaults, the decoder's buffers given up. The save slots
survive (R513); the configuration, the ports and the script engine's answers to come are not the core's
state. -/
def State.resetCore (s : State) : State :=
  { s.resetMem with
    channels := Channels.atReset s.cfg.lfsrSeed
    mus := Music.atReset
    masterVol := s.cfg.masterVolReset
    cart := Cart.atReset
    errCause := .noError
    vm := Controller.atReset
    dec := Decoder.atReset }

/-! ## Sequencing -/

/-- Go on with `f` when an outcome is a next state. -/
def andThen (o : Out) (f : State → Out) : Out :=
  match o with
  | .next s => f s
  | .fault r => .fault r
  | .refused r => .refused r

end Sys2Proof.Machine
end

