-- ==== Sys2Proof/Machine/Operands.lean ====
section
/-! DEFINITION. The operand forms of the command port (00_scope.md R16, 30_encoding.md R101, R158): signed
values, masked values, defaults of unsupplied operands, the colour operand of the pen-based commands
(46_raster_state.md R338), world and screen coordinates (R331), and the ranges of on-screen positions a
run of pixels visits. -/

namespace Sys2Proof.Machine

/-- A supplied operand's value, two's complement (R16). -/
def sval (w : Word) : Int := w.toInt

/-- An optional integer operand with its default. -/
def optInt (o : Operand) (dflt : Int) : Int :=
  match o with
  | some w => sval w
  | none => dflt

/-- Bits 7:0 of an operand (R163, R172, R338). -/
def low8 (w : Word) : Byte := w.extractLsb' 0 8

/-- Bits 3:0 of an operand (R349, R350, R360). -/
def low4 (w : Word) : BitVec 4 := w.extractLsb' 0 4

/-- Bits 15:0 of an operand (R347, R351). -/
def low16 (w : Word) : Half := w.extractLsb' 0 16

/-- Bits 7:0 of an optional operand, 0 when unsupplied (R352). -/
def optLow8 (o : Operand) : Byte :=
  match o with
  | some w => low8 w
  | none => 0

/-- Bits 15:0 of an optional operand, 0 when unsupplied (R347, R351). -/
def optLow16 (o : Operand) : Half :=
  match o with
  | some w => low16 w
  | none => 0

/-- An optional flag operand, default 0; non-zero means set (R394, R397, R351). -/
def optFlag (o : Operand) : Bool :=
  match o with
  | some w => w != 0
  | none => false

/-- `clamp(v, lo, hi)` (R346). -/
def clampInt (v lo hi : Int) : Int := max lo (min hi v)

/-- The colour-operand step (R338): a supplied colour becomes the pen, both nibbles, and stays; without one
the pen is unchanged. -/
def State.colorStep (s : State) (c : Operand) : State :=
  match c with
  | some w => s.poke s.cfg.layout.pen (low8 w)
  | none => s

/-- A world coordinate x in screen coordinates (R331). -/
def State.toScreenX (s : State) (x : Int) : Int := x - s.cameraX

/-- A world coordinate y in screen coordinates (R331). -/
def State.toScreenY (s : State) (y : Int) : Int := y - s.cameraY

/-- The integers of `lo..hi` that lie in `0..top`, in increasing order. A run of pixels visits `lo..hi`; the
positions off the screen are dropped by the first test of `pixel_put` (46_raster_state.md R332), so a run
need only visit these. -/
def clampRange (lo hi top : Int) : List Int :=
  (List.range (min hi top + 1 - max lo 0).toNat).map fun i => max lo 0 + (i : Int)

/-- The on-screen positions of a run `lo..hi` of columns or rows. -/
def screenRange (lo hi : Int) : List Int := clampRange lo hi 127

end Sys2Proof.Machine
end

