-- ==== Sys2Proof/Machine/Flags.lean ====
section
/-! DEFINITION. The flags. The hardware has no arithmetic condition codes (10_state.md R62); its one-bit
items and what is computed from them: colour transparency, fill-pattern choice and transparency, the clip
test, the colour bitmask, and the lifecycle and cart flags' updates. -/

namespace Sys2Proof.Machine

/-- Transparency of colour `c`: bit 4 of its draw-palette entry (R62, 48_raster_blit_text.md R392). -/
def State.transparent (s : State) (c : BitVec 4) : Bool := (s.drawPal c).getLsbD 4

/-- A draw-palette entry with its transparency bit set or cleared, bits 3:0 and 7:5 kept
(46_raster_state.md R350). -/
def setTransparentBit (b : Byte) (t : Bool) : Byte := if t then b ||| 0x10 else b &&& 0xEF

/-- A draw-palette entry with its colour replaced, the transparency bit kept, bits 7:5 cleared (R349). -/
def setPaletteColor (b : Byte) (c : BitVec 4) : Byte := (b &&& 0x10) ||| c.setWidth 8

/-- The fill-pattern bit of screen pixel (x, y) (R334): bit 15 - ((x & 3) + 4*(y & 3)). -/
def fillBit (pattern : Half) (x y : Int) : Bool :=
  pattern.getLsbD (15 - (x % 4 + 4 * (y % 4)).toNat)

/-- The fill-pattern transparency flag (R62). -/
def State.fillTransparent (s : State) : Bool := s.fillpTrans.getLsbD 0

/-- Is screen position (x, y) inside the clip rectangle (10_state.md R33)? -/
def State.inClip (s : State) (x y : Int) : Bool :=
  s.clipX0.toNat ≤ x && x < s.clipX1.toNat && s.clipY0.toNat ≤ y && y < s.clipY1.toNat

/-- The primary pen colour of a pen colour byte: bits 3:0 (R31). -/
def primary (col : Byte) : BitVec 4 := col.extractLsb' 0 4

/-- The secondary pen colour: bits 7:4. -/
def secondary (col : Byte) : BitVec 4 := col.extractLsb' 4 4

/-- The colour bitmask (46_raster_state.md R336): bits 3:0 of the mask byte are the write mask, bits 7:4 the
read mask; a zero byte is no mask. -/
def maskColor (mask : Byte) (old m : BitVec 4) : BitVec 4 :=
  if mask = 0 then m
  else (old &&& ~~~(mask.extractLsb' 0 4)) ||| (m &&& mask.extractLsb' 0 4 &&& mask.extractLsb' 4 4)

/-- The hook-presence flags and the frame rate as the load answer gives them (60_exceptions.md R482). -/
def Controller.withHooks (v : Controller) (a : LoadAnswer) : Controller :=
  { v with
    hasInit := a.hasInit
    hasUpdate := a.hasUpdate
    hasUpdate60 := a.hasUpdate60
    hasDraw := a.hasDraw
    fps := if a.hasUpdate60 then .fps60 else .fps30 }

end Sys2Proof.Machine
end

