-- ==== Sys2Proof/Machine/PixelPath.lean ====
section
/-! DEFINITION. The pixel-write path (46_raster_state.md R332, R333), the runs of pixels the primitives are
made of, and the scan-out (R345). -/

namespace Sys2Proof.Machine

/-- The nibble `pixel_put` stores for colour `c` at a pixel that holds `old` (R332): the draw palette's
colour, then the bitmask. -/
def State.putColor (s : State) (c old : BitVec 4) : BitVec 4 :=
  maskColor s.bitmask old ((s.drawPal c).extractLsb' 0 4)

/-- `pixel_put(x, y, c)` in screen coordinates (R332): nothing off screen or outside the clip rectangle. -/
def State.pixelPut (s : State) (x y : Int) (c : BitVec 4) : State :=
  if onSheet x y && s.inClip x y then
    s.pset screenBase x y (s.putColor c (s.pget screenBase x y))
  else s

/-- `pixel_write(x, y, col)` in screen coordinates (R333): the fill pattern chooses between the primary and
the secondary colour of a pen colour byte; a transparent secondary pixel is not written. -/
def State.pixelWrite (s : State) (x y : Int) (col : Byte) : State :=
  if fillBit s.fillp x y then
    if s.fillTransparent then s else s.pixelPut x y (secondary col)
  else s.pixelPut x y (primary col)

/-- `plot(x, y)`: `pixel_write` with the pen (47_raster_primitives.md, opening). -/
def State.plot (s : State) (x y : Int) : State := s.pixelWrite x y s.pen

/-- Plot a list of points in order. -/
def State.plotAll (s : State) : List (Int × Int) → State
  | [] => s
  | (x, y) :: rest => (s.plot x y).plotAll rest

/-- The points of the horizontal run `xa..xb` of row `y` that are on screen (R332, R340). -/
def rowPoints (xa xb y : Int) : List (Int × Int) := (screenRange xa xb).map fun x => (x, y)

/-- The points of the vertical run `ya..yb` of column `x` that are on screen. -/
def columnPoints (x ya yb : Int) : List (Int × Int) := (screenRange ya yb).map fun y => (x, y)

/-- `span(xa, xb, y)` (47_raster_primitives.md R375). -/
def State.span (s : State) (xa xb y : Int) : State := s.plotAll (rowPoints xa xb y)

/-- The colour the host displays at screen pixel (x, y) (R345): the screen palette's entry for the stored
nibble. It changes nothing. -/
def State.displayed (s : State) (x y : Int) : BitVec 4 :=
  (s.screenPal (s.pget screenBase x y)).extractLsb' 0 4

end Sys2Proof.Machine
end

