-- ==== Sys2Proof/Machine/Blit.lean ====
section
/-! DEFINITION. Sprite blit, scaled blit, tile map and text (48_raster_blit_text.md R390 to R410). The
blitters take their colours from the sprite sheet and write through `pixel_put`; text is pen-based and
writes through `pixel_write`. -/

namespace Sys2Proof.Machine

/-! ## Source pixels -/

/-- `blit_pixel(X, Y, u, v)` (R393): a sheet position outside the sheet and a transparent colour are
skipped. -/
def State.blitPixel (s : State) (X Y u v : Int) : State :=
  if onSheet u v then
    if s.transparent (s.pget gfxBase u v) then s else s.pixelPut X Y (s.pget gfxBase u v)
  else s

/-- Blit a list of (X, Y, u, v) in order. -/
def State.blitAll (s : State) : List (Int × Int × Int × Int) → State
  | [] => s
  | (X, Y, u, v) :: rest => (s.blitPixel X Y u v).blitAll rest

/-- The pixels of a blit to the rectangle of width `w` and height `h` at screen (X, Y), row by row,
on-screen positions only (R332): `u i` is the sheet column of destination column i, `v j` the sheet row of
destination row j. -/
def blitPoints (X Y w h : Int) (u v : Int → Int) : List (Int × Int × Int × Int) :=
  (screenRange Y (Y + h - 1)).flatMap fun y =>
    (screenRange X (X + w - 1)).map fun x => (x, y, u (x - X), v (y - Y))

/-! ## Sprite blit -/

/-- The blit of `sprite` (R394) with all operands in hand: nothing for a sprite number outside 0..255 or a
size that is not positive. A flip mirrors the source block as a whole. -/
def State.drawSprite (s : State) (n x y w h : Int) (flipX flipY : Bool) : State :=
  if n < 0 ∨ 255 < n ∨ w ≤ 0 ∨ h ≤ 0 then s
  else
    s.blitAll (blitPoints (s.toScreenX x) (s.toScreenY y) (8 * w) (8 * h)
      (fun i => n % 16 * 8 + if flipX then 8 * w - 1 - i else i)
      (fun j => n / 16 * 8 + if flipY then 8 * h - 1 - j else j))

/-- `sprite(n, x, y, w, h, flip_x, flip_y)` (R394). -/
def execSprite (n x y w h flipX flipY : Operand) (s : State) : Out :=
  match n, x, y with
  | some n, some x, some y =>
    .next (s.drawSprite (sval n) (sval x) (sval y) (optInt w 1) (optInt h 1) (optFlag flipX)
      (optFlag flipY)).noResult
  | _, _, _ => .next s.ignored

/-! ## Scaled blit -/

/-- The source offset of destination offset `i` (R397): the integer part of `i * step` in 16.16, where
`step = (size << 16) div dest`, mirrored inside the source size by a flip. -/
def sampleAt (size dest : Int) (flip : Bool) (i : Int) : Int :=
  let u := i * (size * 65536 / dest) / 65536
  if flip then size - 1 - u else u

/-- The blit of `sprite_scaled` (R397) with all operands in hand: a negative destination size toggles the
flip and keeps the top-left corner. -/
def State.drawScaled (s : State) (sx sy sw sh dx dy dw dh : Int) (flipX flipY : Bool) : State :=
  if sw ≤ 0 ∨ sh ≤ 0 ∨ dw = 0 ∨ dh = 0 then s
  else
    let w : Int := dw.natAbs
    let h : Int := dh.natAbs
    s.blitAll (blitPoints (s.toScreenX dx) (s.toScreenY dy) w h
      (fun i => sx + sampleAt sw w (flipX != decide (dw < 0)) i)
      (fun j => sy + sampleAt sh h (flipY != decide (dh < 0)) j))

/-- `sprite_scaled(sx, sy, sw, sh, dx, dy, dw, dh, flip_x, flip_y)` (R397). -/
def execSpriteScaled (sx sy sw sh dx dy dw dh flipX flipY : Operand) (s : State) : Out :=
  match sx, sy, sw, sh, dx, dy with
  | some sx, some sy, some sw, some sh, some dx, some dy =>
    .next (s.drawScaled (sval sx) (sval sy) (sval sw) (sval sh) (sval dx) (sval dy)
      (optInt dw (sval sw)) (optInt dh (sval sh)) (optFlag flipX) (optFlag flipY)).noResult
  | _, _, _, _, _, _ => .next s.ignored

/-! ## Tile map -/

/-- The address of map cell (a, b), 0 ≤ a < 128, 0 ≤ b < 64 (R400, 10_state.md R25). -/
def cellAddr (a b : Int) : Nat :=
  if b < 32 then mapBase + (b * 128 + a).toNat else gfxSharedBase + ((b - 32) * 128 + a).toNat

/-- Does the layer filter let tile `t` be drawn (R402)? No filter when the operand is unsupplied or its low
8 bits are 0; any bit, or all bits under `MAP_LAYER_ALL`. -/
def State.layerPasses (s : State) (t : Byte) (layers : Operand) : Bool :=
  if optLow8 layers = 0 then true
  else
    let common := s.peek (flagsBase + t.toNat) &&& optLow8 layers
    if s.cfg.mapLayerAll then common == optLow8 layers else common != 0

/-- One cell of a tile map (R402): tile 0 is never drawn. -/
def State.drawCell (s : State) (a b sx sy : Int) (layers : Operand) : State :=
  let t := s.peek (cellAddr a b)
  if t = 0 then s
  else if s.layerPasses t layers then s.drawSprite t.toNat sx sy 1 1 false false
  else s

/-- Draw a list of (cell column, cell row, world x, world y) in order. -/
def State.drawCells (s : State) (layers : Operand) : List (Int × Int × Int × Int) → State
  | [] => s
  | (a, b, sx, sy) :: rest => (s.drawCell a b sx sy layers).drawCells layers rest

/-- The cells of a tile-map region that exist (R402: a cell outside 0..127 by 0..63 is skipped), row by
row, with the world position of each. -/
def mapCells (cx0 cy0 sx sy cw ch : Int) : List (Int × Int × Int × Int) :=
  (clampRange cy0 (cy0 + ch - 1) 63).flatMap fun b =>
    (clampRange cx0 (cx0 + cw - 1) 127).map fun a => (a, b, sx + 8 * (a - cx0), sy + 8 * (b - cy0))

/-- `tile_map(cx0, cy0, sx, sy, cw, ch, layers)` (R402). -/
def execTileMap (cx0 cy0 sx sy cw ch layers : Operand) (s : State) : Out :=
  match cx0, cy0, sx, sy, cw, ch with
  | some a, some b, some sx, some sy, some cw, some ch =>
    .next (s.drawCells layers (mapCells (sval a) (sval b) (sval sx) (sval sy) (sval cw) (sval ch))).noResult
  | _, _, _, _, _, _ => .next s.ignored

/-! ## Text -/

/-- `FONT(b, r)` (R405). The reference is the stub font of R408's example. -/
def fontRow (f : ParamFn) (b : Byte) (r : Fin 8) : Byte :=
  match f with
  | .reference => if r.val < 5 then 0x07 else 0
  | .custom k => Config.customFont k b r

/-- `glyph_w(b)` (R405): 4 pixels, 8 for bytes from 128 on. -/
def glyphWidth (b : Byte) : Nat := if b.toNat < 128 then 4 else 8

/-- The set pixels of a glyph with its top-left corner at (x, y), row by row (R408). -/
def glyphPoints (f : ParamFn) (b : Byte) (x y : Int) : List (Int × Int) :=
  (List.finRange 8).flatMap fun r =>
    ((List.range (glyphWidth b)).filter fun k => (fontRow f b r).getLsbD k).map fun k =>
      (x + (k : Int), y + (r.val : Int))

/-- The set pixels of a string and the world row its last line is on (R408): a newline (0x0A) returns to the
column the command started at, one line below. -/
def textLayout (f : ParamFn) (glyphH : Nat) (left : Int) : Bytes → Int → Int → List (Int × Int) × Int
  | [], _, ty => ([], ty)
  | b :: rest, tx, ty =>
    if b = 0x0A then textLayout f glyphH left rest left (ty + glyphH + 1)
    else
      let r := textLayout f glyphH left rest (tx + glyphWidth b) ty
      (glyphPoints f b tx ty ++ r.1, r.2)

/-- Where a `text` command starts, in world coordinates (R408): at (x, y) when both are supplied, else at
the cursor. -/
def State.textStart (s : State) (x y : Operand) : Int × Int :=
  match x, y with
  | some x, some y => (sval x, sval y)
  | _, _ => (s.cursorX.toNat, s.cursorY.toNat)

/-- `text(str, x, y, c)` (R408): the cursor is left at the starting column, one line below the last line. -/
def execText (str : Bytes) (x y c : Operand) (s : State) : Out :=
  let start := s.textStart x y
  let t := textLayout s.cfg.font s.cfg.glyphH start.1 str start.1 start.2
  .next (((s.colorStep c).plotAll (t.1.map fun q => (s.toScreenX q.1, s.toScreenY q.2))).pokePairs
    [(s.cfg.layout.cursorX, BitVec.ofInt 8 start.1),
     (s.cfg.layout.cursorY, BitVec.ofInt 8 (t.2 + s.cfg.glyphH + 1))]).noResult

end Sys2Proof.Machine
end

