-- ==== Sys2Proof/Machine/MemoryCmds.lean ====
section
/-! DEFINITION. The memory commands (40_memory_ops.md R160 to R173). None writes a flag and none raises an
error; an access out of range reads 0 or writes nothing (20_memory.md R78 to R80). -/

namespace Sys2Proof.Machine

/-- A read command of `n` bytes (R160 to R162): the value goes to the result port. -/
def readCmd (n : Nat) (addr : Operand) (s : State) : State :=
  match addr with
  | some a => s.returns (BitVec.ofNat 32 (s.memRead (sval a) n))
  | none => s.ignored

/-- A write command of `n` bytes (R163 to R165). -/
def writeCmd (n : Nat) (addr v : Operand) (s : State) : State :=
  match addr, v with
  | some a, some w => (s.memWrite (sval a) n w).noResult
  | _, _ => s.ignored

/-- `read8(addr)` (R160). -/
def execRead8 (addr : Operand) (s : State) : Out := .next (readCmd 1 addr s)

/-- `read16(addr)` (R161). -/
def execRead16 (addr : Operand) (s : State) : Out := .next (readCmd 2 addr s)

/-- `read32(addr)` (R162). -/
def execRead32 (addr : Operand) (s : State) : Out := .next (readCmd 4 addr s)

/-- `write8(addr, v)` (R163). -/
def execWrite8 (addr v : Operand) (s : State) : Out := .next (writeCmd 1 addr v s)

/-- `write16(addr, v)` (R164). -/
def execWrite16 (addr v : Operand) (s : State) : Out := .next (writeCmd 2 addr v s)

/-- `write32(addr, v)` (R165). -/
def execWrite32 (addr v : Operand) (s : State) : Out := .next (writeCmd 4 addr v s)

/-- Does a block operation's start address lie in the memory (R170, R172)? -/
def startOk (a : Int) : Bool := 0 ≤ a && a < 0x8000

/-- The common length of a `bulk_copy` (R170): the request clamped so that neither range passes the end;
0 when the command is a no-op. -/
def copyCount (dst src len : Int) : Nat :=
  if 0 < len ∧ startOk dst ∧ startOk src then (min len (min (0x8000 - dst) (0x8000 - src))).toNat else 0

/-- The length of a `bulk_fill` (R172), clamped; 0 when the command is a no-op. -/
def fillCount (dst len : Int) : Nat :=
  if 0 < len ∧ startOk dst then (min len (0x8000 - dst)).toNat else 0

/-- The move of R170: the source is read whole before any byte is written. -/
def State.bulkCopy (s : State) (dst src len : Int) : State :=
  s.storeBlock dst.toNat (s.mem.getBlock src.toNat (copyCount dst src len))

/-- The fill of R172. -/
def State.bulkFill (s : State) (dst : Int) (value : Byte) (len : Int) : State :=
  s.storeBlock dst.toNat (List.replicate (fillCount dst len) value)

/-- `bulk_copy(dst, src, len)` (R170). -/
def execBulkCopy (dst src len : Operand) (s : State) : Out :=
  match dst, src, len with
  | some d, some r, some n =>
    .next (if copyCount (sval d) (sval r) (sval n) = 0 then s.noResult
      else (s.bulkCopy (sval d) (sval r) (sval n)).noResult)
  | _, _, _ => .next s.ignored

/-- `bulk_fill(dst, value, len)` (R172). -/
def execBulkFill (dst value len : Operand) (s : State) : Out :=
  match dst, value, len with
  | some d, some v, some n =>
    .next (if fillCount (sval d) (sval n) = 0 then s.noResult
      else (s.bulkFill (sval d) (low8 v) (sval n)).noResult)
  | _, _, _ => .next s.ignored

end Sys2Proof.Machine
end

