-- ==== Sys2Proof/Machine/Primitives.lean ====
section
/-! DEFINITION. The drawing primitives (47_raster_primitives.md R360 to R380). Every command except `clear`
and `get_pixel` is pen-based: the colour-operand step (46_raster_state.md R338), screen coordinates (R331),
then points plotted through the pixel-write path. The point lists are the shapes. -/

namespace Sys2Proof.Machine

/-! ## Clear and single pixels -/

/-- The framebuffer bytes `clear` writes: both nibbles the colour (R360). -/
def clearByte (c : Operand) : Byte :=
  match c with
  | some w => low4 w ++ low4 w
  | none => 0

/-- `clear(c)` (R360): the framebuffer filled, the text cursor at (0, 0); no camera, clip rectangle, fill
pattern, palette or bitmask, and the pen unchanged. -/
def execClear (c : Operand) (s : State) : Out :=
  .next ((s.storeBlock screenBase (List.replicate 0x2000 (clearByte c))).pokePairs
    [(s.cfg.layout.cursorX, 0), (s.cfg.layout.cursorY, 0)]).noResult

/-- `set_pixel(x, y, c)` (R362). -/
def execSetPixel (x y c : Operand) (s : State) : Out :=
  match x, y with
  | some x, some y =>
    .next ((s.colorStep c).plot (s.toScreenX (sval x)) (s.toScreenY (sval y))).noResult
  | _, _ => .next s.ignored

/-- The nibble `get_pixel` reads at a screen position (R363): 0 off screen or outside the clip rectangle. -/
def State.visiblePixel (s : State) (x y : Int) : BitVec 4 :=
  if onSheet x y && s.inClip x y then s.pget screenBase x y else 0

/-- `get_pixel(x, y)` (R363). -/
def execGetPixel (x y : Operand) (s : State) : Out :=
  match x, y with
  | some x, some y =>
    .next (s.returns ((s.visiblePixel (s.toScreenX (sval x)) (s.toScreenY (sval y))).setWidth 32))
  | _, _ => .next s.ignored

/-! ## Line -/

/-- The loop of `draw_line` (R366), in at most the given number of iterations. -/
def lineLoop (x1 y1 dx dy sx sy : Int) : Nat → Int → Int → Int → List (Int × Int)
  | 0, _, _, _ => []
  | n + 1, x, y, err =>
    if x = x1 ∧ y = y1 then [(x, y)]
    else
      let e2 := 2 * err
      let stepX := dy ≤ e2
      let stepY := e2 ≤ dx
      (x, y) :: lineLoop x1 y1 dx dy sx sy n
        (if stepX then x + sx else x) (if stepY then y + sy else y)
        (err + (if stepX then dy else 0) + (if stepY then dx else 0))

/-- The pixels of `draw_line(x0, y0, x1, y1)` in order (R366): the all-octant integer Bresenham line, of
max(|x1-x0|, |y1-y0|) + 1 pixels (R367). -/
def linePoints (x0 y0 x1 y1 : Int) : List (Int × Int) :=
  let dx : Int := (x1 - x0).natAbs
  let dy : Int := -((y1 - y0).natAbs : Int)
  lineLoop x1 y1 dx dy (if x0 < x1 then 1 else -1) (if y0 < y1 then 1 else -1)
    (max (x1 - x0).natAbs (y1 - y0).natAbs + 1) x0 y0 (dx + dy)

/-- The end points of a `line` command in world coordinates (R365): two points, or the line-continuation
point and the first point when the second is not wholly supplied. -/
def State.lineEnds (s : State) (x0 y0 : Word) (x1 y1 : Operand) : (Int × Int) × (Int × Int) :=
  match x1, y1 with
  | some x1, some y1 => ((sval x0, sval y0), (sval x1, sval y1))
  | _, _ => ((s.lineX, s.lineY), (sval x0, sval y0))

/-- Record the line-continuation point (R365). -/
def State.recordLineEnd (s : State) (x y : Int) : State :=
  (s.poke16 s.cfg.layout.lineX (BitVec.ofInt 16 x)).poke16 s.cfg.layout.lineY (BitVec.ofInt 16 y)

/-- `line(x0, y0, x1, y1, c)` (R365): the point recorded is the end point in world coordinates, also when
nothing was visible. -/
def execLine (x0 y0 x1 y1 c : Operand) (s : State) : Out :=
  match x0, y0 with
  | some x0, some y0 =>
    let ends := s.lineEnds x0 y0 x1 y1
    .next (((s.colorStep c).plotAll
      (linePoints (s.toScreenX ends.1.1) (s.toScreenY ends.1.2) (s.toScreenX ends.2.1)
        (s.toScreenY ends.2.2))).recordLineEnd ends.2.1 ends.2.2).noResult
  | _, _ => .next s.ignored

/-! ## Rectangles -/

/-- The border of the rectangle xa..xb by ya..yb (R370), on-screen positions only. -/
def rectPoints (xa ya xb yb : Int) : List (Int × Int) :=
  rowPoints xa xb ya ++ rowPoints xa xb yb ++ columnPoints xa ya yb ++ columnPoints xb ya yb

/-- The pixels of the rectangle xa..xb by ya..yb (R371), row by row, on-screen positions only. -/
def rectFillPoints (xa ya xb yb : Int) : List (Int × Int) :=
  (screenRange ya yb).flatMap fun y => rowPoints xa xb y

/-- A rectangle command (R370, R371): corners normalised, in screen coordinates. -/
def rectCmd (points : Int → Int → Int → Int → List (Int × Int)) (x0 y0 x1 y1 c : Operand) (s : State) : State :=
  match x0, y0, x1, y1 with
  | some x0, some y0, some x1, some y1 =>
    ((s.colorStep c).plotAll
      (points (s.toScreenX (min (sval x0) (sval x1))) (s.toScreenY (min (sval y0) (sval y1)))
        (s.toScreenX (max (sval x0) (sval x1))) (s.toScreenY (max (sval y0) (sval y1))))).noResult
  | _, _, _, _ => s.ignored

/-- `rect(x0, y0, x1, y1, c)` (R370). -/
def execRect (x0 y0 x1 y1 c : Operand) (s : State) : Out := .next (rectCmd rectPoints x0 y0 x1 y1 c s)

/-- `rect_fill(x0, y0, x1, y1, c)` (R371). -/
def execRectFill (x0 y0 x1 y1 c : Operand) (s : State) : Out := .next (rectCmd rectFillPoints x0 y0 x1 y1 c s)

/-! ## Circles -/

/-- The loop of `circle_steps` (R373), in at most the given number of iterations. -/
def circleLoop : Nat → Int → Int → Int → List (Int × Int)
  | 0, _, _, _ => []
  | n + 1, px, py, f =>
    if px ≤ py then
      (px, py) ::
        (if f < 0 then circleLoop n (px + 1) py (f + 2 * px + 3)
         else circleLoop n (px + 1) (py - 1) (f + 2 * (px - py) + 5))
    else []

/-- `circle_steps(r)` (R373), for r ≥ 0: at most r + 1 pairs, since px grows by one and stays at most r. -/
def circleSteps (r : Int) : List (Int × Int) := circleLoop (r.toNat + 1) 0 r (1 - r)

/-- The outline of a circle at (X, Y) (R374): eight reflections of each step. -/
def circlePoints (X Y r : Int) : List (Int × Int) :=
  (circleSteps r).flatMap fun q =>
    [(X + q.1, Y + q.2), (X - q.1, Y + q.2), (X + q.1, Y - q.2), (X - q.1, Y - q.2),
     (X + q.2, Y + q.1), (X - q.2, Y + q.1), (X + q.2, Y - q.1), (X - q.2, Y - q.1)]

/-- The filled circle (R375): four spans of each step, on-screen positions only. -/
def circleFillPoints (X Y r : Int) : List (Int × Int) :=
  (circleSteps r).flatMap fun q =>
    rowPoints (X - q.1) (X + q.1) (Y + q.2) ++ rowPoints (X - q.1) (X + q.1) (Y - q.2) ++
      rowPoints (X - q.2) (X + q.2) (Y + q.1) ++ rowPoints (X - q.2) (X + q.2) (Y - q.1)

/-- A circle command (R374, R375): the default radius is 4, a negative one draws nothing; the colour step
comes first. -/
def circleCmd (points : Int → Int → Int → List (Int × Int)) (x y r c : Operand) (s : State) : State :=
  match x, y with
  | some x, some y =>
    if optInt r 4 < 0 then (s.colorStep c).noResult
    else ((s.colorStep c).plotAll (points (s.toScreenX (sval x)) (s.toScreenY (sval y)) (optInt r 4))).noResult
  | _, _ => s.ignored

/-- `circle(x, y, r, c)` (R374). -/
def execCircle (x y r c : Operand) (s : State) : Out := .next (circleCmd circlePoints x y r c s)

/-- `circle_fill(x, y, r, c)` (R375). -/
def execCircleFill (x y r c : Operand) (s : State) : Out := .next (circleCmd circleFillPoints x y r c s)

/-! ## Ellipses -/

/-- The variables of the ellipse algorithm that change (R377). -/
structure EllipseVars where
  x0 : Int
  x1 : Int
  y0 : Int
  y1 : Int
  dx : Int
  dy : Int
  err : Int
  deriving DecidableEq, Repr

/-- One iteration of R377's `repeat`: the y step, then the x step, which sees the error after it. -/
def ellipseStep (a8 b8 : Int) (v : EllipseVars) : EllipseVars :=
  let e2 := 2 * v.err
  let v := if e2 ≤ v.dy then
      { v with y0 := v.y0 + 1, y1 := v.y1 - 1, dy := v.dy + a8, err := v.err + (v.dy + a8) }
    else v
  if v.dx ≤ e2 ∨ v.dy < 2 * v.err then
    { v with x0 := v.x0 + 1, x1 := v.x1 - 1, dx := v.dx + b8, err := v.err + (v.dx + b8) }
  else v

/-- R377's `repeat` loop, in at most the given number of iterations: the triples emitted and the variables
at its end. -/
def ellipseLoop (a8 b8 : Int) : Nat → EllipseVars → List (Int × Int × Int) × EllipseVars
  | 0, v => ([], v)
  | n + 1, v =>
    let w := ellipseStep a8 b8 v
    let rest := if w.x1 < w.x0 then ([], w) else ellipseLoop a8 b8 n w
    ((v.x0, v.x1, v.y0) :: (v.x0, v.x1, v.y1) :: rest.1, rest.2)

/-- R377's closing `while` loop, in at most the given number of iterations: the flat ends of a thin ellipse. -/
def ellipseTail (b xl xr : Int) : Nat → Int → Int → List (Int × Int × Int)
  | 0, _, _ => []
  | n + 1, y0, y1 =>
    if y0 - y1 ≤ b then (xl, xr, y0) :: (xl, xr, y1) :: ellipseTail b xl xr n (y0 + 1) (y1 - 1) else []

/-- The variables R377 starts its loop with, for a bounding rectangle of width a + 1 and height b + 1. -/
def ellipseStart (x0 y0 x1 y1 a b : Int) : EllipseVars :=
  let b1 := b % 2
  let dx := 4 * (1 - a) * b * b
  let dy := 4 * (b1 + 1) * a * a
  let xl := if x1 < x0 then x1 else x0
  let xr := if x1 < x0 then x1 + a else x1
  let top := if y1 < y0 then y1 else y0
  let yc := top + (b + 1) / 2
  { x0 := xl, x1 := xr, y0 := yc, y1 := yc - b1, dx := dx, dy := dy, err := dx + dy + b1 * a * a }

/-- `ellipse_rows` with its two loops run in at most `n` and `m` iterations. -/
def ellipseRowsIn (n m : Nat) (x0 y0 x1 y1 : Int) : List (Int × Int × Int) :=
  let a : Int := (x1 - x0).natAbs
  let b : Int := (y1 - y0).natAbs
  let r := ellipseLoop (8 * a * a) (8 * b * b) n (ellipseStart x0 y0 x1 y1 a b)
  r.1 ++ ellipseTail b (r.2.x0 - 1) (r.2.x1 + 1) m r.2.y0 r.2.y1

/-- `ellipse_rows(x0, y0, x1, y1)` (R377): the triples (left, right, row). An iteration of the first loop
moves x or y by one, at most about half the width and half the height in all, so the bounds exceed the
iterations the loops make (DEDUCED, log entry 12). -/
def ellipseRows (x0 y0 x1 y1 : Int) : List (Int × Int × Int) :=
  ellipseRowsIn (2 * ((x1 - x0).natAbs + (y1 - y0).natAbs) + 8) ((y1 - y0).natAbs + 1) x0 y0 x1 y1

/-- The outline of an ellipse (R378): the two ends of each row triple. -/
def ellipsePoints (x0 y0 x1 y1 : Int) : List (Int × Int) :=
  (ellipseRows x0 y0 x1 y1).flatMap fun q => [(q.1, q.2.2), (q.2.1, q.2.2)]

/-- The filled ellipse (R379): a span for each row triple, on-screen positions only. -/
def ellipseFillPoints (x0 y0 x1 y1 : Int) : List (Int × Int) :=
  (ellipseRows x0 y0 x1 y1).flatMap fun q => rowPoints q.1 q.2.1 q.2.2

/-- An ellipse command (R378, R379): the bounding rectangle in screen coordinates. -/
def ellipseCmd (points : Int → Int → Int → Int → List (Int × Int)) (x0 y0 x1 y1 c : Operand) (s : State) :
    State :=
  match x0, y0, x1, y1 with
  | some x0, some y0, some x1, some y1 =>
    ((s.colorStep c).plotAll
      (points (s.toScreenX (sval x0)) (s.toScreenY (sval y0)) (s.toScreenX (sval x1))
        (s.toScreenY (sval y1)))).noResult
  | _, _, _, _ => s.ignored

/-- `ellipse(x0, y0, x1, y1, c)` (R378). -/
def execEllipse (x0 y0 x1 y1 c : Operand) (s : State) : Out := .next (ellipseCmd ellipsePoints x0 y0 x1 y1 c s)

/-- `ellipse_fill(x0, y0, x1, y1, c)` (R379). -/
def execEllipseFill (x0 y0 x1 y1 c : Operand) (s : State) : Out :=
  .next (ellipseCmd ellipseFillPoints x0 y0 x1 y1 c s)

end Sys2Proof.Machine
end

