-- ==== Sys2Proof/Machine/RasterState.lean ====
section
/-! DEFINITION. The state-setting commands of the rasterizer (46_raster_state.md R346 to R352). Each writes
bytes of the draw-state block and nothing else. -/

namespace Sys2Proof.Machine

/-- `set_clip(x, y, w, h)` (R346): screen coordinates, clamped to 0..128; the full screen unless all four
are supplied. -/
def execSetClip (x y w h : Operand) (s : State) : Out :=
  match x, y, w, h with
  | some x, some y, some w, some h =>
    .next (s.pokePairs
      [(s.cfg.layout.clipX0, BitVec.ofInt 8 (clampInt (sval x) 0 128)),
       (s.cfg.layout.clipY0, BitVec.ofInt 8 (clampInt (sval y) 0 128)),
       (s.cfg.layout.clipX1, BitVec.ofInt 8 (clampInt (sval x + sval w) 0 128)),
       (s.cfg.layout.clipY1, BitVec.ofInt 8 (clampInt (sval y + sval h) 0 128))]).noResult
  | _, _, _, _ => .next (s.pokePairs (clipDefaults s.cfg.layout)).noResult

/-- `set_camera(x, y)` (R347). -/
def execSetCamera (x y : Operand) (s : State) : Out :=
  .next ((s.poke16 s.cfg.layout.cameraX (optLow16 x)).poke16 s.cfg.layout.cameraY (optLow16 y)).noResult

/-- `set_color(c)` (R348). -/
def execSetColor (c : Operand) (s : State) : Out :=
  match c with
  | some w => .next (s.poke s.cfg.layout.pen (low8 w)).noResult
  | none => .next (s.poke s.cfg.layout.pen s.cfg.defaultPen).noResult

/-- `set_palette(c0, c1, p)` (R349): the draw palette keeps its transparency bit; page 1 is the screen
palette; no operands restore both palettes. -/
def execSetPalette (c0 c1 p : Operand) (s : State) : Out :=
  match c0, c1 with
  | some a, some b =>
    if optInt p 0 = 0 then
      .next (s.poke (s.cfg.layout.drawPal + (low4 a).toNat)
        (setPaletteColor (s.drawPal (low4 a)) (low4 b))).noResult
    else if optInt p 0 = 1 then
      .next (s.poke (s.cfg.layout.screenPal + (low4 a).toNat) ((low4 b).setWidth 8)).noResult
    else .next s.noResult
  | none, none => .next (s.pokePairs (paletteDefaults s.cfg.layout)).noResult
  | _, _ => .next s.noResult

/-- One draw-palette entry's transparency bit set or cleared. -/
def State.markTransparent (s : State) (c : BitVec 4) (t : Bool) : State :=
  s.poke (s.cfg.layout.drawPal + c.toNat) (setTransparentBit (s.drawPal c) t)

/-- Transparency bits set or cleared for a list of colours, in order. -/
def State.markAll (s : State) : List (BitVec 4 × Bool) → State
  | [] => s
  | (c, t) :: rest => (s.markTransparent c t).markAll rest

/-- The reset transparency: colour 0 transparent, 1 to 15 not (R350). -/
def resetTransparency : List (BitVec 4 × Bool) :=
  (List.range 16).map fun i => (BitVec.ofNat 4 i, i == 0)

/-- `set_transparent(c, t)` (R350): the default of `t` is true. -/
def execSetTransparent (c t : Operand) (s : State) : Out :=
  match c with
  | some a => .next (s.markTransparent (low4 a) (optInt t 1 != 0)).noResult
  | none => .next (s.markAll resetTransparency).noResult

/-- `set_fill_pattern(pattern, trans)` (R351). -/
def execSetFillPattern (pattern trans : Operand) (s : State) : Out :=
  .next ((s.poke16 s.cfg.layout.fillp (optLow16 pattern)).poke s.cfg.layout.fillpTrans
    (if optFlag trans then 1 else 0)).noResult

/-- `set_cursor(x, y, c)` (R352). -/
def execSetCursor (x y c : Operand) (s : State) : Out :=
  .next (((s.poke s.cfg.layout.cursorX (optLow8 x)).poke s.cfg.layout.cursorY (optLow8 y)).colorStep c).noResult

end Sys2Proof.Machine
end

