-- ==== Sys2Proof/Machine/Synth.lean ====
section
/-! DEFINITION. The synthesizer (49_synth.md R420 to R461): the commands `sfx`, `music` and
`set_master_volume`, and the sample step. -/

namespace Sys2Proof.Machine

/-! ## Formulas and parameter functions -/

/-- The address of byte `k` of sound effect `n` (30_encoding.md R151). -/
def sfxAddr (n : Fin 64) (k : Nat) : Nat := sfxBase + 68 * n.val + k

/-- `samples_per_tick` of a speed byte (R422): the speed counts as at least 1. -/
def samplesPerTick (rate : Nat) (speed : Byte) : Word := BitVec.ofNat 32 (rate * max speed.toNat 1 / 120)

/-- `phase_inc` of a frequency (R423). -/
def phaseIncrement (rate freq : Nat) : Word := BitVec.ofNat 32 (freq * 65536 / rate)

/-- `tri(p)` (R446). -/
def tri (p : Nat) : Int := 2 * (if p < 0x8000 then (p : Int) else 0xFFFF - p) - 32767

/-- `WAVE_REF(w, p, l)` (R446) as an integer; `div` truncates toward zero (00_scope.md R12). -/
def waveRef (w : Nat) (p : Nat) (l : Nat) : Int :=
  match w with
  | 0 => tri p
  | 1 => if p < 0xE000 then (p * 65534 / 0xE000 : Nat) - 32767
    else 32767 - ((p - 0xE000) * 65534 / 0x2000 : Nat)
  | 2 => (p : Int) - 32768
  | 3 => if p < 0x8000 then 32767 else -32768
  | 4 => if p < 0x5555 then 32767 else -32768
  | 5 => (tri p + tri (2 * p % 65536)).tdiv 2
  | 6 => if l % 2 = 1 then 32767 else -32768
  | _ => (2 * tri p + tri (3 * p % 65536)).tdiv 3

/-- `WAVE(w, p, l)` (R445): the reference, or a free function that sees the noise register only for the
noise waveform. -/
def waveSample (f : ParamFn) (w : BitVec 3) (p l : Half) : Int :=
  match f with
  | .reference => waveRef w.toNat p.toNat l.toNat
  | .custom k => (Config.customWave k w p (if w = 6 then l else 0)).toInt

/-- `LFSR_REF` (R447): taps 16, 14, 13, 11. -/
def lfsrRef (l : Half) : Half :=
  l.ushiftRight 1 ||| (((l ^^^ l.ushiftRight 2 ^^^ l.ushiftRight 3 ^^^ l.ushiftRight 5) &&& 1).shiftLeft 15)

/-- `LFSR_STEP` (R447). -/
def lfsrClock (f : ParamFn) (l : Half) : Half :=
  match f with
  | .reference => lfsrRef l
  | .custom k => Config.customLfsr k l

/-- The noise register clocked `n` times. -/
def lfsrClocks (f : ParamFn) : Nat → Half → Half
  | 0, l => l
  | n + 1, l => lfsrClocks f n (lfsrClock f l)

/-- `clip16(v)` (00_scope.md R12). -/
def clip16 (v : Int) : Int := max (-32768) (min 32767 v)

/-! ## Notes -/

/-- The note word of note `k` of sound effect `n` (R443, 30_encoding.md R150). -/
def State.noteWord (s : State) (n : Fin 64) (k : Fin 32) : Half := s.peek16 (sfxAddr n (2 * k.val))

/-- A channel with the fields of a note word cached (R443; bit positions 30_encoding.md R150). -/
def cacheNote (cfg : Config) (w : Half) (c : Channel) : Channel :=
  let freq := BitVec.ofNat 32 (cfg.noteFreq.getD (w.extractLsb' 0 6).toNat 0)
  { c with
    freq := freq
    wave := w.extractLsb' 6 3
    vol := w.extractLsb' 9 3
    effect := w.extractLsb' 12 3
    custom := w.getLsbD 15
    phaseInc := phaseIncrement cfg.sampleRate freq.toNat }

/-- `load_note(c)` (R443) for a channel that plays sound effect `n`. -/
def State.loadNote (s : State) (n : Fin 64) (c : Channel) : Channel :=
  cacheNote s.cfg (s.noteWord n c.noteIdx) c

/-! ## Triggering -/

/-- An operand value as an index below `n`, when it is one. -/
def asFin (n : Nat) (v : Int) : Option (Fin n) :=
  if h : v.toNat < n then if 0 ≤ v then some ⟨v.toNat, h⟩ else none else none

/-- A supplied channel operand inside 0..3 (R430). -/
def channelOperand (channel : Operand) : Option (Fin 4) :=
  match channel with
  | some w => asFin 4 (sval w)
  | none => none

/-- The channel `sfx` plays on (R430): the explicit one, else the lowest-numbered idle one, else 0. -/
def Channels.pick (cs : Channels) (channel : Operand) : Fin 4 :=
  match channelOperand channel with
  | some c => c
  | none => ((List.finRange 4).find? fun c => (cs.get c).sfxIdx.isNone).getD 0

/-- A channel stopped: idle, its other registers kept (R430). -/
def Channel.stopped (c : Channel) : Channel := { c with sfxIdx := none }

/-- The channels after `sfx(-1, channel)` (R430): the explicit channel stopped, or all. -/
def Channels.stop (cs : Channels) (channel : Operand) : Channels :=
  match channelOperand channel with
  | some c => cs.put c (cs.get c).stopped
  | none => ⟨cs.ch0.stopped, cs.ch1.stopped, cs.ch2.stopped, cs.ch3.stopped⟩

/-- A channel that starts sound effect `n` at note `off` (R430); the noise register is not reseeded. -/
def State.trigger (s : State) (n : Fin 64) (off : Fin 32) (c : Channel) : Channel :=
  s.loadNote n
    { c with
      sfxIdx := some n
      noteIdx := off
      tickCtr := 0
      phase := 0
      samplesPerTick := samplesPerTick s.cfg.sampleRate (s.peek (sfxAddr n 65)) }

/-- The same state with other channel registers. -/
def State.withChannels (s : State) (cs : Channels) : State := { s with channels := cs }

/-- `sfx` with its number in hand (R430): -1 stops, an index or offset out of range does nothing. -/
def State.playSfx (s : State) (n : Int) (channel offset : Operand) : State :=
  if n = -1 then s.withChannels (s.channels.stop channel)
  else
    match asFin 64 n, asFin 32 (optInt offset 0) with
    | some i, some off =>
      let c := s.channels.pick channel
      s.withChannels (s.channels.put c (s.trigger i off (s.channels.get c)))
    | _, _ => s

/-- `sfx(n, channel, offset)` (R430). -/
def execSfx (n channel offset : Operand) (s : State) : Out :=
  match n with
  | some n => .next (s.playSfx (sval n) channel offset).noResult
  | none => .next s.ignored

/-- `music(n)` (R452): pattern n from tick 0, or no pattern for -1; any other number does nothing. -/
def execMusic (n : Operand) (s : State) : Out :=
  match n with
  | some n =>
    if sval n = -1 then .next { s with mus := Music.atReset }.noResult
    else
      match asFin 64 (sval n) with
      | some p => .next { s with mus := { pattern := some p, tick := 0, loop := false } }.noResult
      | none => .next s.noResult
  | none => .next s.ignored

/-- `set_master_volume(v)` (R455). -/
def execSetMasterVolume (v : Operand) (s : State) : Out :=
  match v with
  | some w => .next { s with masterVol := BitVec.ofInt 8 (clampInt (sval w) 0 255) }.noResult
  | none => .next s.ignored

/-! ## The sample step -/

/-- What a channel does on tick rollover (R440): the next note, the loop start after note 31 when the
sound effect loops, or idle. -/
def State.rollover (s : State) (n : Fin 64) (c : Channel) : Channel :=
  let c := { c with tickCtr := 0, phase := 0 }
  let ls := s.peek (sfxAddr n 66)
  let le := s.peek (sfxAddr n 67)
  if c.noteIdx.val + 1 < 32 then s.loadNote n { c with noteIdx := c.noteIdx + 1 }
  else if ls.toNat < le.toNat ∧ ls.toNat ≤ 31 then s.loadNote n { c with noteIdx := Fin.ofNat 32 ls.toNat }
  else c.stopped

/-- A channel after its tick counter advanced (R440): the rollover when a note's samples have elapsed. -/
def State.tickChannel (s : State) (n : Fin 64) (c : Channel) : Channel :=
  if c.samplesPerTick.toNat ≤ c.tickCtr.toNat + 1 then s.rollover n c
  else { c with tickCtr := c.tickCtr + 1 }

/-- A channel's term of the mix (R440): the waveform scaled by volume * 32 / 256. -/
def channelTerm (cfg : Config) (c : Channel) : Int :=
  (waveSample cfg.wave c.wave (c.phase.extractLsb' 0 16) c.lfsr * (c.vol.toNat * 32)).tdiv 256

/-- A channel after its phase advanced (R440): the noise register is clocked once per wrap of the low 16
phase bits, for the noise waveform only. -/
def advancePhase (cfg : Config) (c : Channel) : Channel :=
  let np := c.phase.toNat + c.phaseInc.toNat
  { c with
    lfsr := if c.wave = 6 then lfsrClocks cfg.lfsrStep (np / 65536 - c.phase.toNat / 65536) c.lfsr else c.lfsr
    phase := BitVec.ofNat 32 np }

/-- One channel's part of a sample step (R440): the channel afterwards and its term of the mix. An idle
channel, and one the step makes idle, adds nothing. -/
def State.sampleChannel (s : State) (c : Channel) : Channel × Int :=
  match c.sfxIdx with
  | none => (c, 0)
  | some n =>
    let c := s.tickChannel n c
    if c.sfxIdx = none then (c, 0) else (advancePhase s.cfg c, channelTerm s.cfg c)

/-- The sample of a mix (R440): hard-clipped, then scaled by the master volume. -/
def masterScale (vol : Byte) (mix : Int) : Int := (clip16 mix * vol.toNat).tdiv 256

/-- `sample()` (R440): all four channels advanced, the sample delivered on the sample port behind those
delivered before (R47; DESIGN CHOICE, log entry 37). -/
def execSample (s : State) : Out :=
  let r0 := s.sampleChannel s.channels.ch0
  let r1 := s.sampleChannel s.channels.ch1
  let r2 := s.sampleChannel s.channels.ch2
  let r3 := s.sampleChannel s.channels.ch3
  .next { s with
    channels := ⟨r0.1, r1.1, r2.1, r3.1⟩
    sampleOut := s.sampleOut ++ [BitVec.ofInt 16 (masterScale s.masterVol (r0.2 + r1.2 + r2.2 + r3.2))] }

end Sys2Proof.Machine
end

