-- ==== Sys2Proof/Machine/Hooks.lean ====
section
/-! DEFINITION. Hooks as command traces (60_exceptions.md R482, R489): the commands of a trace executed in
order, and the script engine's answers. -/

namespace Sys2Proof.Machine

/-- One command of a trace (R489). An instruction that may not stand in a trace has no case here: its place
is a proof that cannot exist. -/
def runTraceItem (t : TraceItem) (s : State) : Out :=
  match t with
  | ⟨.read8 addr, _⟩ => execRead8 addr s
  | ⟨.read16 addr, _⟩ => execRead16 addr s
  | ⟨.read32 addr, _⟩ => execRead32 addr s
  | ⟨.write8 addr v, _⟩ => execWrite8 addr v s
  | ⟨.write16 addr v, _⟩ => execWrite16 addr v s
  | ⟨.write32 addr v, _⟩ => execWrite32 addr v s
  | ⟨.bulkCopy dst src len, _⟩ => execBulkCopy dst src len s
  | ⟨.bulkFill dst value len, _⟩ => execBulkFill dst value len s
  | ⟨.setClip x y w h, _⟩ => execSetClip x y w h s
  | ⟨.setCamera x y, _⟩ => execSetCamera x y s
  | ⟨.setColor c, _⟩ => execSetColor c s
  | ⟨.setPalette c0 c1 p, _⟩ => execSetPalette c0 c1 p s
  | ⟨.setTransparent c t, _⟩ => execSetTransparent c t s
  | ⟨.setFillPattern pattern tr, _⟩ => execSetFillPattern pattern tr s
  | ⟨.setCursor x y c, _⟩ => execSetCursor x y c s
  | ⟨.clear c, _⟩ => execClear c s
  | ⟨.setPixel x y c, _⟩ => execSetPixel x y c s
  | ⟨.getPixel x y, _⟩ => execGetPixel x y s
  | ⟨.line x0 y0 x1 y1 c, _⟩ => execLine x0 y0 x1 y1 c s
  | ⟨.rect x0 y0 x1 y1 c, _⟩ => execRect x0 y0 x1 y1 c s
  | ⟨.rectFill x0 y0 x1 y1 c, _⟩ => execRectFill x0 y0 x1 y1 c s
  | ⟨.circle x y r c, _⟩ => execCircle x y r c s
  | ⟨.circleFill x y r c, _⟩ => execCircleFill x y r c s
  | ⟨.ellipse x0 y0 x1 y1 c, _⟩ => execEllipse x0 y0 x1 y1 c s
  | ⟨.ellipseFill x0 y0 x1 y1 c, _⟩ => execEllipseFill x0 y0 x1 y1 c s
  | ⟨.sprite n x y w h flipX flipY, _⟩ => execSprite n x y w h flipX flipY s
  | ⟨.spriteScaled sx sy sw sh dx dy dw dh flipX flipY, _⟩ =>
    execSpriteScaled sx sy sw sh dx dy dw dh flipX flipY s
  | ⟨.tileMap cx0 cy0 sx sy cw ch layers, _⟩ => execTileMap cx0 cy0 sx sy cw ch layers s
  | ⟨.text str x y c, _⟩ => execText str x y c s
  | ⟨.sfx n channel offset, _⟩ => execSfx n channel offset s
  | ⟨.music n, _⟩ => execMusic n s
  | ⟨.sample, _⟩ => execSample s
  | ⟨.reset, h⟩ | ⟨.loadCart _, h⟩ | ⟨.run, h⟩ | ⟨.pause, h⟩ | ⟨.resume, h⟩ | ⟨.stop, h⟩ | ⟨.unload, h⟩
  | ⟨.step, h⟩ | ⟨.queryError, h⟩ | ⟨.queryFps, h⟩ | ⟨.queryFrame, h⟩ | ⟨.setMasterVolume _, h⟩ =>
    absurd h Bool.false_ne_true
  | ⟨.dfStored _, h⟩ | ⟨.dfFixed _, h⟩ | ⟨.dfDynamic _, h⟩ | ⟨.dfReserved _, h⟩ | ⟨.dfLit _, h⟩ | ⟨.dfEob, h⟩
  | ⟨.dfLen _ _ _ _, h⟩ | ⟨.fltNone, h⟩ | ⟨.fltSub, h⟩ | ⟨.fltUp, h⟩ | ⟨.fltAvg, h⟩ | ⟨.fltPaeth, h⟩
  | ⟨.nfLit _, h⟩ | ⟨.nfRef15 _ _, h⟩ | ⟨.nfRef10 _ _, h⟩ | ⟨.nfRef5 _ _, h⟩ | ⟨.nfRaw, h⟩ | ⟨.lgEsc _, h⟩
  | ⟨.lgSym _, h⟩ | ⟨.lgRef _ _, h⟩ | ⟨.rawScript, h⟩ => absurd h Bool.false_ne_true

/-- The commands of a trace, in order (R489). -/
def runTrace : List TraceItem → State → Out
  | [], s => .next s
  | t :: rest, s => andThen (runTraceItem t s) (runTrace rest)

/-- The script engine's answer to the load of the script text (R482): the next one given, or a free one. -/
def State.nextLoadAnswer (s : State) : LoadAnswer :=
  match s.loadAnswers with
  | a :: _ => a
  | [] => Config.freeLoadAnswer s.engineCalls s.dec.codeOut s.mem

/-- The script engine's answer to a hook call (R489): the next one given, or a free one. -/
def State.nextHookAnswer (s : State) (h : Hook) : HookAnswer :=
  match s.hookAnswers with
  | a :: _ => a
  | [] => Config.freeHookAnswer s.engineCalls h s.mem

/-- The state with a load answer taken. -/
def State.tookLoadAnswer (s : State) : State :=
  { s with loadAnswers := s.loadAnswers.drop 1, engineCalls := s.engineCalls + 1 }

/-- The state with a hook answer taken. -/
def State.tookHookAnswer (s : State) : State :=
  { s with hookAnswers := s.hookAnswers.drop 1, engineCalls := s.engineCalls + 1 }

/-- What the load answer's outcome does (R482, R491): the hook flags and the frame rate, or the Error
state. -/
def State.recordLoad (s : State) (a : LoadAnswer) : State :=
  if a.ok then { s with vm := s.vm.withHooks a } else s.raiseScriptError a.msg

/-- The script text handed to the engine, its answer's trace executed and its outcome recorded (R482). -/
def callLoad (s : State) : Out :=
  andThen (runTrace s.nextLoadAnswer.trace s.tookLoadAnswer) fun t => .next (t.recordLoad s.nextLoadAnswer)

/-- A hook invoked and its trace executed (R489), then `f` on its answer. -/
def callHook (h : Hook) (f : HookAnswer → State → Out) (s : State) : Out :=
  andThen (runTrace (s.nextHookAnswer h).trace s.tookHookAnswer) (f (s.nextHookAnswer h))

end Sys2Proof.Machine
end

