-- ==== Sys2Proof/Machine/Controller.lean ====
section
/-! DEFINITION. The controller's commands (60_exceptions.md R483 to R492; 70_reset_and_hazards.md R512):
`reset`, the lifecycle commands, `step` and the queries. -/

namespace Sys2Proof.Machine

/-- The same state with the controller's registers changed. -/
def State.withVm (s : State) (v : Controller) : State := { s with vm := v }

/-- The same state in another lifecycle state. -/
def State.enter (s : State) (l : Lifecycle) : State := s.withVm { s.vm with state := l }

/-- `reset` (R512). -/
def execReset (s : State) : Out := .next s.resetCore.noResult

/-- The end of an init hook (R484): a failure is a ScriptError. -/
def afterInit (a : HookAnswer) (s : State) : Out :=
  .next (if a.ok then s else s.raiseScriptError a.msg).noResult

/-- `run` (R484): from Stopped and Paused only; the init hook is called when the cart has one. -/
def execRun (s : State) : Out :=
  if s.vm.state = .stopped ∨ s.vm.state = .paused then
    if s.vm.hasInit then callHook .init afterInit (s.enter .running)
    else .next (s.enter .running).noResult
  else .next s.noResult

/-- `pause` (R485). -/
def execPause (s : State) : Out :=
  .next (if s.vm.state = .running then s.enter .paused else s).noResult

/-- `resume` (R485): no hook is called. -/
def execResume (s : State) : Out :=
  .next (if s.vm.state = .paused then s.enter .running else s).noResult

/-- `stop` (R486). -/
def execStop (s : State) : Out := .next (s.enter .stopped).noResult

/-- `unload` (R486): the same transition. -/
def execUnload (s : State) : Out := .next (s.enter .stopped).noResult

/-! ## Step -/

/-- The update hook a frame calls (R488): the 60 Hz one before the 30 Hz one. -/
def Controller.updateHook (v : Controller) : Option Hook :=
  if v.hasUpdate60 then some .update60 else if v.hasUpdate then some .update else none

/-- Does a hook's outcome stop the frame (R488)? A failure with a non-empty message. -/
def hookAborts (a : HookAnswer) : Bool := !a.ok && a.msg != []

/-- The pattern tick of a committed frame (R488, 49_synth.md R452): it counts while a pattern is active. -/
def Music.frameTick (m : Music) : Music := if m.pattern = none then m else { m with tick := m.tick + 1 }

/-- The end of a frame (R488): the sequencer, the committed flag, the frame counter. -/
def State.commitFrame (s : State) : State :=
  { s with
    mus := s.mus.frameTick
    vm := { s.vm with committed := true, frame := s.vm.frame + 1 } }

/-- After the draw hook (R488). -/
def afterDraw (a : HookAnswer) (s : State) : Out :=
  .next (if hookAborts a then s.raiseScriptError a.msg else s.commitFrame).noResult

/-- The draw hook, when there is one, and the end of the frame (R488). -/
def drawPhase (s : State) : Out :=
  if s.vm.hasDraw then callHook .draw afterDraw s else .next s.commitFrame.noResult

/-- After the update hook (R488). -/
def afterUpdate (a : HookAnswer) (s : State) : Out :=
  if hookAborts a then .next (s.raiseScriptError a.msg).noResult else drawPhase s

/-- A frame (R488). -/
def frame (s : State) : Out :=
  match s.vm.updateHook with
  | some h => callHook h afterUpdate s
  | none => drawPhase s

/-- `step` (R488): a no-op unless Running. -/
def execStep (s : State) : Out :=
  if s.vm.state = .running then frame (s.withVm { s.vm with committed := false })
  else .next s.noResult

/-! ## Queries -/

/-- The number of a frame rate (R60). -/
def Fps.value : Fps → Nat
  | .fps30 => 30
  | .fps60 => 60

/-- `query_error` (R490). -/
def execQueryError (s : State) : Out := .next (s.returns (BitVec.ofNat 32 s.errCause.code))

/-- `query_fps` (R490). -/
def execQueryFps (s : State) : Out := .next (s.returns (BitVec.ofNat 32 s.vm.fps.value))

/-- `query_frame` (R490). -/
def execQueryFrame (s : State) : Out := .next (s.returns s.vm.frame)

end Sys2Proof.Machine
end

