-- ==== Sys2Proof/Machine/Container.lean ====
section
/-! DEFINITION. The cart front end (30_encoding.md R102 to R110; 41_png_container.md R190 to R198): container
detection, the PNG chunk walk, the IHDR and IDAT handlers, the zlib header check, and the two checksums the
optional checks use. -/

namespace Sys2Proof.Machine

/-! ## Container detection -/

/-- The PNG signature (R103). -/
def pngSignature : Bytes := [0x89, 0x50, 0x4E, 0x47, 0x0D, 0x0A, 0x1A, 0x0A]

/-- `pico-8 cartridge` in ASCII (R102). -/
def textHeader : Bytes :=
  [0x70, 0x69, 0x63, 0x6F, 0x2D, 0x38, 0x20, 0x63, 0x61, 0x72, 0x74, 0x72, 0x69, 0x64, 0x67, 0x65]

/-- The two container formats (R102). -/
inductive Container where
  | png
  | text
  deriving DecidableEq, Repr

/-- The container a cart image is in, by its first bytes; the PNG test comes first (R102). -/
def detectContainer (file : Bytes) : Option Container :=
  if file.take 8 = pngSignature then some .png
  else if file.take 16 = textHeader then some .text
  else none

/-! ## Big-endian fields and checksums -/

/-- The big-endian value of a byte sequence (R104, R105). -/
def beValue (b : Bytes) : Nat := b.foldl (fun n x => 256 * n + x.toNat) 0

/-- One bit of the CRC-32 division. -/
def crcBit (c : Word) : Word := if c.getLsbD 0 then 0xEDB88320 ^^^ (c >>> 1) else c >>> 1

/-- One byte of the CRC-32. -/
def crcByte (c : Word) (x : Byte) : Word :=
  crcBit (crcBit (crcBit (crcBit (crcBit (crcBit (crcBit (crcBit (c ^^^ x.setWidth 32))))))))

/-- CRC-32 of a chunk's type and data (R104). PRESUMED: the PNG specification's polynomial, initial value
and final complement, which R104 names without giving. -/
def crc32 (b : Bytes) : Nat := (~~~(b.foldl crcByte 0xFFFFFFFF)).toNat

/-- Adler-32 of the uncompressed data (R110). PRESUMED: RFC 1950's two sums modulo 65521. -/
def adler32 (b : Bytes) : Nat :=
  let r := b.foldl (fun (p : Nat × Nat) x => ((p.1 + x.toNat) % 65521, (p.2 + p.1 + x.toNat) % 65521)) (1, 0)
  r.2 * 65536 + r.1

/-! ## Chunk walk -/

/-- What the chunk walk has gathered so far (R192): the IHDR width and height once seen, and the IDAT data. -/
structure ChunkAcc where
  size : Option (Nat × Nat)
  idat : Bytes
  deriving DecidableEq, Repr

/-- The chunk types the walk distinguishes (R106). -/
def tagIHDR : Bytes := [0x49, 0x48, 0x44, 0x52]
def tagIDAT : Bytes := [0x49, 0x44, 0x41, 0x54]
def tagIEND : Bytes := [0x49, 0x45, 0x4E, 0x44]

/-- `handle_ihdr(data)` (R194), its checks in the rule's order. -/
def handleIhdr (cfg : Config) (acc : ChunkAcc) (data : Bytes) : Except Cause ChunkAcc :=
  let w := beValue (data.take 4)
  let h := beValue ((data.drop 4).take 4)
  if acc.size.isSome || acc.idat != [] || data.length != 13 then .error .badPng
  else if data.getD 8 0 != 8 || data.getD 9 0 != 6 || data.getD 12 0 != 0 then .error .unsupportedPng
  else if w = 0 || h = 0 then .error .badPng
  else if cfg.pngMaxW < w || cfg.pngMaxH < h then .error .tooLarge
  else .ok { acc with size := some (w, h) }

/-- `handle_idat(data)` (R195). -/
def handleIdat (cfg : Config) (acc : ChunkAcc) (data : Bytes) : Except Cause ChunkAcc :=
  if acc.size.isNone then .error .badPng
  else if cfg.idatCap < acc.idat.length + data.length then .error .tooLarge
  else .ok { acc with idat := acc.idat ++ data }

/-- The loop of `walk_chunks` (R192) over the bytes from `pos` on. A chunk takes at least 12 bytes, so the
number of bytes left bounds the iterations, and is the first argument. -/
def walkChunks (cfg : Config) : Nat → ChunkAcc → Bytes → Except Cause ChunkAcc
  | 0, acc, _ => .ok acc
  | fuel + 1, acc, rest =>
    if rest.length < 12 then .ok acc
    else
      let len := beValue (rest.take 4)
      let tag := (rest.drop 4).take 4
      let data := (rest.drop 8).take len
      if rest.length < 12 + len then .error .badPng
      else if cfg.checkCrc && crc32 (tag ++ data) != beValue ((rest.drop (8 + len)).take 4) then .error .badPng
      else if tag = tagIEND then .ok acc
      else
        match (if tag = tagIHDR then handleIhdr cfg acc data
          else if tag = tagIDAT then handleIdat cfg acc data
          else .ok acc) with
        | .error c => .error c
        | .ok acc => walkChunks cfg fuel acc (rest.drop (12 + len))

/-- The zlib header checks (R198, R110), made only when `CHECK_ZLIB`. -/
def zlibHeaderOk (idat : Bytes) : Bool :=
  let cmf := (idat.getD 0 0).toNat
  let flg := (idat.getD 1 0).toNat
  cmf % 16 == 8 && cmf / 16 ≤ 7 && (cmf * 256 + flg) % 31 == 0 && flg / 32 % 2 == 0

/-- The container stage on a PNG image whose signature has been seen (R192 to R198): width, height and
IDAT data, or the cause. -/
def pngFront (cfg : Config) (file : Bytes) : Except Cause (Nat × Nat × Bytes) :=
  match walkChunks cfg (file.length + 1) ⟨none, []⟩ (file.drop 8) with
  | .error c => .error c
  | .ok acc =>
    match acc.size with
    | none => .error .badPng
    | some (w, h) =>
      if acc.idat.length < 2 then .error .badDeflate
      else if cfg.checkZlib && !zlibHeaderOk acc.idat then .error .badDeflate
      else .ok (w, h, acc.idat)

/-- The decoder ready to inflate (R211, R210): the cursors at 0, the output empty, the first block header
next. -/
def Decoder.forInflate (d : Decoder) (w h : Nat) (idat : Bytes) : Decoder :=
  { d with
    stage := .blockHeader
    inPos := 0
    imgW := w
    imgH := h
    idat := idat
    raw := []
    pix := []
    bfinal := false }

end Sys2Proof.Machine
end

