-- ==== Sys2Proof/Machine/Inflate.lean ====
section
/-! DEFINITION. The inflate engine's tokens (42_inflate.md R210 to R232). The block and Huffman formats are
decoded in Sys2Proof/Decode.lean; a token's meaning starts with `in_pos` behind the token's own bits (R50). -/

namespace Sys2Proof.Machine

/-! ## Cursors and output -/

/-- `D = idat[2..]`: the DEFLATE stream (R198, R210). -/
def Decoder.stream (d : Decoder) : Bytes := d.idat.drop 2

/-- `raw_cap = img_h * (1 + 4*img_w)` (R210). -/
def Decoder.rawCap (d : Decoder) : Nat := d.imgH * (1 + 4 * d.imgW)

/-- Go on only while the decoder is in the stage whose token this is; a stream token has no meaning outside
it (R55). -/
def State.inStage (s : State) (st : Stage) (o : Out) : Out :=
  if s.dec.stage = st then o else .fault .tokenOutsideStage

/-- The load ends with BAD_DEFLATE (42_inflate.md R212). -/
def badDeflate (s : State) : Out := .next (s.raiseLoadError .badDeflate)

/-- `n` bytes copied from `dist` bytes back, one at a time, so that just-written bytes are read again
(R230). -/
def copyBack (dist : Nat) : Nat → Bytes → Bytes
  | 0, out => out
  | n + 1, out => copyBack dist n (out ++ [out.getD (out.length - dist) 0])

/-- Bit position rounded up to the next byte boundary (R115, R214). -/
def alignUp (pos : Nat) : Nat := (pos + 7) / 8 * 8

/-- The stage after a block: the next header, or the end of the stream after a final block (R228). -/
def blockEnd (final : Bool) : Stage := if final then .inflateDone else .blockHeader

/-! ## Block headers -/

/-- The LEN and NLEN fields of a stored block, and the bit position of its first byte (R115); `none` when
the input is exhausted. -/
def storedLengths (D : Bytes) (pos : Nat) : Option (Nat × Nat × Nat) :=
  match getBits D (alignUp pos) 16 with
  | none => none
  | some (len, p1) =>
    match getBits D p1 16 with
    | none => none
    | some (nlen, p2) => some (len, nlen, p2)

/-- A stored block's copy (R214) with its fields in hand: every bound is checked before a byte is copied. -/
def State.copyStored (s : State) (final : Bool) (len nlen pos : Nat) : Out :=
  if nlen ≠ 65535 - len then badDeflate s
  else if 8 * s.dec.stream.length < pos + 8 * len then badDeflate s
  else if s.dec.rawCap < s.dec.raw.length + len then badDeflate s
  else
    .next (s.withDec { s.dec with
      raw := s.dec.raw ++ (s.dec.stream.drop (pos / 8)).take len
      inPos := pos + 8 * len
      bfinal := final
      stage := blockEnd final })

/-- `df.stored` (R214). A block that fails leaves `in_pos` behind its three header bits (DESIGN CHOICE, log
entry 33) and `bfinal` as it was before the header (DESIGN CHOICE, log entry 39). -/
def execDfStored (final : Bool) (s : State) : Out :=
  s.inStage .blockHeader
    (match storedLengths s.dec.stream s.dec.inPos with
    | none => badDeflate s
    | some (len, nlen, pos) => s.copyStored final len nlen pos)

/-- A compressed block opened with its two tables (R224, R225). `lengths` holds the literal code lengths with the
distance code lengths behind them and no other entry. DESIGN CHOICE (log entry 38): the entries of
`lengths[0..319]` (R52) that the header does not write are not kept from an earlier block, and a fixed header is
laid out likewise, where R224 writes the distance lengths over the first 30 entries of its `L`. -/
def Decoder.openBlock (d : Decoder) (final : Bool) (lens : List Nat × List Nat) (pos : Nat) : Decoder :=
  { d with
    stage := .blockTokens
    inPos := pos
    bfinal := final
    lencode := huffOf lens.1
    distcode := huffOf lens.2
    lengths := lens.1 ++ lens.2 }

/-- `df.fixed` (R224). What `lengths` holds afterwards is a DESIGN CHOICE (log entry 38). -/
def execDfFixed (final : Bool) (s : State) : Out :=
  s.inStage .blockHeader
    (.next (s.withDec (s.dec.openBlock final (fixedLitLengths, List.replicate 30 5) s.dec.inPos)))

/-- `df.dynamic` (R225): the code lengths are read from the stream. A header that fails leaves `in_pos` behind
its first three bits (DESIGN CHOICE, log entry 33) and `bfinal`, `lengths`, `lencode` and `distcode` as they were
before it (DESIGN CHOICE, log entry 39). -/
def execDfDynamic (final : Bool) (s : State) : Out :=
  s.inStage .blockHeader
    (match readDynamic s.dec.stream s.dec.inPos with
    | .error _ => badDeflate s
    | .ok (lens, pos) => .next (s.withDec (s.dec.openBlock final lens pos)))

/-- `df.reserved` (R113, R213): block type 3. `bfinal` stays as it was before the header (DESIGN CHOICE, log
entry 39). -/
def execDfReserved (_final : Bool) (s : State) : Out := s.inStage .blockHeader (badDeflate s)

/-! ## Tokens of a compressed block -/

/-- `df.lit` (R227): `emit` (R212). -/
def execDfLit (sym : Byte) (s : State) : Out :=
  s.inStage .blockTokens
    (if s.dec.rawCap ≤ s.dec.raw.length then badDeflate s
    else .next (s.withDec { s.dec with raw := s.dec.raw ++ [sym] }))

/-- `df.eob` (R228). -/
def execDfEob (s : State) : Out :=
  s.inStage .blockTokens (.next (s.withDec { s.dec with stage := blockEnd s.dec.bfinal }))

/-- `df.len` (R230): an illegal symbol, a distance before the start of the output and a copy past its
capacity fail, in this order, before a byte is copied. -/
def execDfLen (lsym lextra dsym dextra : Nat) (s : State) : Out :=
  s.inStage .blockTokens
    (if !wfDfLen lsym lextra dsym dextra then badDeflate s
    else if s.dec.raw.length < copyDist dsym dextra then badDeflate s
    else if s.dec.rawCap < s.dec.raw.length + copyLength lsym lextra then badDeflate s
    else
      .next (s.withDec { s.dec with
        raw := copyBack (copyDist dsym dextra) (copyLength lsym lextra) s.dec.raw }))

end Sys2Proof.Machine
end

