-- ==== Sys2Proof/Machine/Script.lean ====
section
/-! DEFINITION. The script decoders (44_code_decompress.md R270 to R305): dispatch on the region's first
bytes, the tokens of the two compressed formats, and the raw script. -/

namespace Sys2Proof.Machine

/-! ## Dispatch and common rules -/

/-- The magic of the new format (R127). -/
def newMagic : Bytes := [0x00, 0x70, 0x78, 0x61]

/-- The magic of the legacy format (R127). -/
def legacyMagic : Bytes := [0x3A, 0x63, 0x3A, 0x00]

/-- How a script region is decoded, by its first bytes (R127, R270); `scriptDone` is the empty script. -/
def scriptStage (S : Bytes) : Stage :=
  if S.take 4 = newMagic then .newFormat
  else if S.take 4 = legacyMagic then .legacy
  else if printable (S.getD 0 0) then .rawScript
  else .scriptDone

/-- `limit` (R271): the declared length, big-endian at offset 4 (R128), at most `CODE_CAP`. -/
def scriptLimit (codeCap : Nat) (S : Bytes) : Nat :=
  min ((S.getD 4 0).toNat * 256 + (S.getD 5 0).toNat) codeCap

/-- The initial move-to-front table (R275). -/
def mtfInit : Bytes := (List.range 256).map fun i => BitVec.ofNat 8 i

/-- The decoder ready for the script region it holds (R270, R275, R290). The table and the limit are set for every
format (DESIGN CHOICE, log entry 41). -/
def Decoder.forScript (d : Decoder) (codeCap : Nat) : Decoder :=
  { d with
    stage := scriptStage d.script
    inPos := 0
    codeOut := []
    mtf := mtfInit
    limit := scriptLimit codeCap d.script }

/-- `T = S[CODE_STREAM_OFF..]` (R130, R290): the stream both compressed formats are read from. -/
def State.codeStream (s : State) : Bytes := s.dec.script.drop s.cfg.codeStreamOff

/-- The load ends with BAD_CODE_STREAM (R272). -/
def badCodeStream (s : State) : Out := .next (s.raiseLoadError .badCodeStream)

/-- `emit` of R271: a byte is appended only below the limit. -/
def Decoder.emitCode (d : Decoder) (b : Byte) : Decoder :=
  if d.codeOut.length < d.limit then { d with codeOut := d.codeOut ++ [b] } else d

/-- A back-reference's copy (R278, R293): an offset before the start of the output fails; a copy that would
pass the limit is cut there. -/
def State.copyCode (s : State) (offset length : Nat) : Out :=
  if s.dec.codeOut.length < offset then badCodeStream s
  else
    .next (s.withDec { s.dec with
      codeOut := copyBack offset (min length (s.dec.limit - s.dec.codeOut.length)) s.dec.codeOut })

/-! ## New format -/

/-- Entry `index` of a move-to-front table promoted to the front (R276). -/
def promote (mtf : Bytes) (index : Nat) : Bytes := mtf.getD index 0 :: mtf.eraseIdx index

/-- `nf.lit` (R276). -/
def execNfLit (index : Byte) (s : State) : Out :=
  s.inStage .newFormat
    (.next (s.withDec
      ({ s.dec with mtf := promote s.dec.mtf index.toNat }.emitCode (s.dec.mtf.getD index.toNat 0))))

/-- `nf.ref15` (R278): a back-reference whose offset field has 15 bits. -/
def execNfRef15 (field : BitVec 15) (length : Nat) (s : State) : Out :=
  s.inStage .newFormat (s.copyCode (field.toNat + 1) length)

/-- `nf.ref10` (R278): a back-reference whose offset field has 10 bits. -/
def execNfRef10 (field : BitVec 10) (length : Nat) (s : State) : Out :=
  s.inStage .newFormat (s.copyCode (field.toNat + 1) length)

/-- `nf.ref5` (R278): a back-reference whose offset field has 5 bits. -/
def execNfRef5 (field : BitVec 5) (length : Nat) (s : State) : Out :=
  s.inStage .newFormat (s.copyCode (field.toNat + 1) length)

/-- The loop of `raw_run` (R280) over at most the given number of bytes: the bytes emitted, the bit position
reached, and whether the input was exhausted before the terminating zero or the limit. An exhausted run leaves
the position at the first bit of the 8-bit field that is cut short (DESIGN CHOICE, log entry 40). -/
def rawRun (T : Bytes) : Nat → Nat → Bytes × Nat × Bool
  | 0, pos => ([], pos, false)
  | n + 1, pos =>
    match getBits T pos 8 with
    | none => ([], pos, true)
    | some (b, pos) =>
      if b = 0 then ([], pos, false)
      else
        let r := rawRun T n pos
        (BitVec.ofNat 8 b :: r.1, r.2)

/-- `nf.raw` (R280): the run's bytes up to its zero, the limit or the end of the input, where the decoder
stops (R272). DEDUCED: the bytes a run emitted before the input was exhausted stand. DESIGN CHOICE: `in_pos` is
then at the first bit of the field cut short (log entry 40). -/
def execNfRaw (s : State) : Out :=
  s.inStage .newFormat
    (let r := rawRun s.codeStream (s.dec.limit - s.dec.codeOut.length) s.dec.inPos
    .next (s.withDec { s.dec with
      codeOut := s.dec.codeOut ++ r.1
      inPos := r.2.1
      stage := if r.2.2 then .scriptDone else .newFormat }))

/-! ## Legacy format -/

/-- `LEGACY_REF(b0, b1)` (R135): offset and length. -/
def legacyRefOf (f : ParamFn) (b0 b1 : Byte) : Nat × Nat :=
  match f with
  | .reference => ((b0.toNat - 0x3C) * 16 + b1.toNat % 16, b1.toNat / 16 + 2)
  | .custom k => Config.customLegacyRef k b0 b1

/-- `lg.esc` (R291). -/
def execLgEsc (b1 : Byte) (s : State) : Out := s.inStage .legacy (.next (s.withDec (s.dec.emitCode b1)))

/-- `LEGACY_ALPHABET[b0 - 1]` (R136). -/
def legacySymbol (f : ParamFn) (b0 : Byte) : Byte :=
  match f with
  | .reference => legacyAlphabet.getD (b0.toNat - 1) 0
  | .custom k => Config.customLegacyAlphabet k b0

/-- `lg.sym` (R292). -/
def execLgSym (b0 : Byte) (s : State) : Out :=
  s.inStage .legacy (.next (s.withDec (s.dec.emitCode (legacySymbol s.cfg.legacyAlphabet b0))))

/-- `lg.ref` (R293): offset 0 fails too. -/
def execLgRef (b0 b1 : Byte) (s : State) : Out :=
  s.inStage .legacy
    (let r := legacyRefOf s.cfg.legacyRef b0 b1
    if r.1 = 0 then badCodeStream s else s.copyCode r.1 r.2)

/-! ## Raw script -/

/-- The bytes of a raw script (R300): those before the first zero, at most `CODE_CAP`. -/
def rawScriptBytes (codeCap : Nat) (S : Bytes) : Bytes := (S.takeWhile (· != 0)).take codeCap

/-- `raw.script` (R300): the script's bytes are output, and `in_pos` advances by them (R50). DEDUCED: the zero
that ends them is not counted (log entry 35). -/
def execRawScript (s : State) : Out :=
  s.inStage .rawScript
    (.next (s.withDec { s.dec with
      codeOut := rawScriptBytes s.cfg.codeCap s.dec.script
      inPos := s.dec.inPos + (rawScriptBytes s.cfg.codeCap s.dec.script).length
      stage := .scriptDone }))

end Sys2Proof.Machine
end

