-- ==== Sys2Proof/Machine/Unfilter.lean ====
section
/-! DEFINITION. The scanline filters, the payload extraction and the payload split
(43_png_unfilter_extract.md R250 to R262). -/

namespace Sys2Proof.Machine

/-! ## Filter reversal -/

/-- `stride = 4 * img_w` (R250). -/
def Decoder.stride (d : Decoder) : Nat := 4 * d.imgW

/-- The Paeth predictor (R256): the nearest of a, b, c to a + b - c, ties in this order. -/
def paeth (a b c : Byte) : Byte :=
  let p : Int := a.toNat + b.toNat - c.toNat
  let pa := (p - a.toNat).natAbs
  let pb := (p - b.toNat).natAbs
  let pc := (p - c.toNat).natAbs
  if pa ≤ pb ∧ pa ≤ pc then a else if pb ≤ pc then b else c

/-- The mean of two bytes, the sum not wrapped (R255). -/
def average (a b : Byte) : Byte := BitVec.ofNat 8 ((a.toNat + b.toNat) / 2)

/-- The byte 4 to the left of index `i` in a line, 0 before its start (R251). -/
def leftOf (line : Bytes) (i : Nat) : Byte := if 4 ≤ i then line.getD (i - 4) 0 else 0

/-- A scanline reconstructed from its filtered bytes (R251): `above` is the line before (empty for the
first), `line` what is reconstructed so far. -/
def filterLine (pred : Byte → Byte → Byte → Byte) (above : Bytes) : Bytes → Bytes → Bytes
  | line, [] => line
  | line, x :: xs =>
    let i := line.length
    filterLine pred above (line ++ [x + pred (leftOf line i) (above.getD i 0) (leftOf above i)]) xs

/-- The line reconstructed last; empty before the first (R251). -/
def Decoder.lastLine (d : Decoder) : Bytes := d.pix.drop (d.pix.length - d.stride)

/-- A filter byte's effect (R251 to R256): the filtered bytes of its scanline, which follow it, are
reconstructed with this predictor. -/
def State.scanline (s : State) (pred : Byte → Byte → Byte → Byte) : Out :=
  s.inStage .scanlines
    (let xs := (s.dec.raw.drop s.dec.inPos).take s.dec.stride
    if xs.length < s.dec.stride then .fault .unspecifiedBuffer
    else
      .next (s.withDec { s.dec with
        pix := s.dec.pix ++ filterLine pred s.dec.lastLine [] xs
        inPos := s.dec.inPos + s.dec.stride }))

/-- `flt.none` (R252). -/
def execFltNone (s : State) : Out := s.scanline fun _ _ _ => 0

/-- `flt.sub` (R253). -/
def execFltSub (s : State) : Out := s.scanline fun a _ _ => a

/-- `flt.up` (R254). -/
def execFltUp (s : State) : Out := s.scanline fun _ b _ => b

/-- `flt.avg` (R255). -/
def execFltAvg (s : State) : Out := s.scanline fun a b _ => average a b

/-- `flt.paeth` (R256). -/
def execFltPaeth (s : State) : Out := s.scanline paeth

/-! ## Payload -/

/-- The size of the payload (R51). -/
def payloadSize : Nat := 0x8001

/-- The hidden byte of a pixel (R125): the two low bits of A, R, G, B, highest first. -/
def hiddenByte (r g b a : Byte) : Byte :=
  a.extractLsb' 0 2 ++ (r.extractLsb' 0 2 ++ (g.extractLsb' 0 2 ++ b.extractLsb' 0 2 : BitVec 4) : BitVec 6)

/-- The hidden bytes of a pixel sequence (R258). -/
def hiddenBytes : Bytes → Bytes
  | r :: g :: b :: a :: rest => hiddenByte r g b a :: hiddenBytes rest
  | _ => []

/-- `extract` (R258): one byte a pixel, at most 0x8001, zeros after the last pixel. -/
def extractPayload (pix : Bytes) : Bytes :=
  let p := (hiddenBytes pix).take payloadSize
  p ++ List.replicate (payloadSize - p.length) 0

/-- The size of the data parts of the payload and of the memory they are copied to (R126, R260). -/
def dataSize : Nat := 0x4300

/-- The size of the script region (R126, R261). -/
def scriptSize : Nat := 0x3D00

/-- `extract` and `split` (R258 to R261): the five data regions, the version marker and the script region
taken from the image. -/
def State.splitPayload (s : State) : State :=
  let payload := extractPayload s.dec.pix
  { s.storeBlock 0 (payload.take dataSize) with
    cart := { s.cart with version := payload.getD 0x8000 0 }
    dec := { s.dec with payload := payload, script := (payload.drop dataSize).take scriptSize } }

end Sys2Proof.Machine
end

