-- ==== Sys2Proof/Machine/Fetch.lean ====
section
/-! DEFINITION. Token fetch (10_state.md R50: a token is fetched at `in_pos`): what the running decoder stage
finds at its cursor. -/

namespace Sys2Proof.Machine

/-- What a stage finds at its cursor: a token and the position behind the bits that name it; the end of its
input or output; a stream error; or a read of bytes that were never produced (R55). -/
inductive Fetched where
  | token (i : Instr) (pos : Nat)
  | done
  | bad (c : Cause)
  | missing
  deriving DecidableEq, Repr

/-- A token of the inflate engine: any rejection is BAD_DEFLATE (42_inflate.md R212, R221, R226). -/
def inflateFetch (r : Except Reject (Instr × Nat)) : Fetched :=
  match r with
  | .ok (i, pos) => .token i pos
  | .error _ => .bad .badDeflate

/-- A token of a script decoder: exhausted input is a stop, any other rejection BAD_CODE_STREAM (R272). -/
def scriptFetch (r : Except Reject (Instr × Nat)) : Fetched :=
  match r with
  | .ok (i, pos) => .token i pos
  | .error .exhausted => .done
  | .error .noHeader | .error .missingWords | .error .reservedOpcode | .error .reservedHeaderBits
  | .error .reservedPresence | .error .badSymbol | .error .badIndex | .error .badFilter => .bad .badCodeStream

/-- The filter byte of the next scanline (R250, R251). -/
def filterFetch (d : Decoder) : Fetched :=
  if d.rawCap ≤ d.inPos then .done
  else
    match d.raw[d.inPos]? with
    | none => .missing
    | some ft =>
      match decodeFilter ft.toNat with
      | .error _ => .bad .badFilter
      | .ok i => .token i (d.inPos + 1)

/-- What the running stage finds at its cursor. -/
def fetch (s : State) : Fetched :=
  match s.dec.stage with
  | .idle | .inflateDone | .scriptDone => .done
  | .blockHeader => inflateFetch (decodeBlockHeader s.dec.stream s.dec.inPos)
  | .blockTokens => inflateFetch (decodeBlockToken s.dec.lencode s.dec.distcode s.dec.stream s.dec.inPos)
  | .scanlines => filterFetch s.dec
  | .newFormat =>
    if s.dec.limit ≤ s.dec.codeOut.length then .done
    else scriptFetch (decodeNewFormat s.codeStream s.dec.inPos)
  | .legacy =>
    if s.dec.limit ≤ s.dec.codeOut.length then .done
    else scriptFetch (decodeLegacy s.codeStream s.dec.inPos)
  | .rawScript => .token .rawScript s.dec.inPos

/-- The state with the fetched token's bits consumed (R50). -/
def State.consume (s : State) (pos : Nat) : State := s.withDec { s.dec with inPos := pos }

end Sys2Proof.Machine
end

