-- ==== Sys2Proof/Machine/TextCart.lean ====
section
/-! DEFINITION. The text cart loader (30_encoding.md R140, R141; 45_text_cart.md R310 to R321). -/

namespace Sys2Proof.Machine

/-! ## Lines -/

/-- A line with its trailing 0x0D dropped (R140). -/
def dropCr (ln : Bytes) : Bytes := if ln.getLast? = some 0x0D then ln.dropLast else ln

/-- The lines of a file (R140); `cur` is the line being gathered, last byte first. Each 0x0A ends a line,
and bytes after the last 0x0A form one more. -/
def splitLines : Bytes → Bytes → List Bytes
  | cur, [] => if cur = [] then [] else [dropCr cur.reverse]
  | cur, b :: rest => if b = 0x0A then dropCr cur.reverse :: splitLines [] rest else splitLines (b :: cur) rest

/-- The sections of a text cart (R310); `skip` is the label section and any unknown one (R318). -/
inductive Section where
  | none
  | script
  | graphics
  | flags
  | map
  | sound
  | music
  | skip
  deriving DecidableEq, Repr

/-- Does a line start and end with two underscores (R318)? -/
def looksLikeTag (ln : Bytes) : Bool :=
  2 ≤ ln.length && ln.take 2 == [0x5F, 0x5F] && ln.drop (ln.length - 2) == [0x5F, 0x5F]

/-- The section a line starts, when it is a tag (R140, R310, R318). -/
def tagSection (t : TextTags) (ln : Bytes) : Option Section :=
  if ln = t.lua then some .script
  else if ln = t.gfx then some .graphics
  else if ln = t.gff then some .flags
  else if ln = t.map then some .map
  else if ln = t.sfx then some .sound
  else if ln = t.music then some .music
  else if ln = t.label then some .skip
  else if looksLikeTag ln then some .skip
  else none

/-! ## Digits -/

/-- The value of a hex digit (R141). -/
def hexVal (b : Byte) : Option (BitVec 4) :=
  if 0x30 ≤ b.toNat ∧ b.toNat ≤ 0x39 then some (BitVec.ofNat 4 (b.toNat - 0x30))
  else if 0x61 ≤ b.toNat ∧ b.toNat ≤ 0x66 then some (BitVec.ofNat 4 (b.toNat - 0x61 + 10))
  else if 0x41 ≤ b.toNat ∧ b.toNat ≤ 0x46 then some (BitVec.ofNat 4 (b.toNat - 0x41 + 10))
  else none

/-- The hex digits a line starts with: a row stops at the first other byte or the end of the line (R311). -/
def hexRun : Bytes → List (BitVec 4)
  | [] => []
  | b :: rest =>
    match hexVal b with
    | none => []
    | some d => d :: hexRun rest

/-- The bytes of digit pairs, high digit first; a single digit left over is dropped (R141, R314). -/
def digitPairs : List (BitVec 4) → Bytes
  | hi :: lo :: rest => (hi ++ lo) :: digitPairs rest
  | _ => []

/-! ## Section parsers -/

/-- Digits set as pixels of row `y` of the sprite sheet from column `x` on (R313). -/
def State.setPixels (s : State) (y : Nat) : Nat → List (BitVec 4) → State
  | _, [] => s
  | x, d :: ds => (s.pset gfxBase x y d).setPixels y (x + 1) ds

/-- `gfx_line` (R313). -/
def State.gfxLine (s : State) (ln : Bytes) (row : Nat) : State :=
  if row < 128 then s.setPixels row 0 ((hexRun ln).take 128) else s

/-- A row of byte pairs in a region of `rows` rows of 128 bytes (R314, R315). -/
def State.pairLine (s : State) (base rows : Nat) (ln : Bytes) (row : Nat) : State :=
  if row < rows then s.pokeAll (base + row * 128) ((digitPairs (hexRun ln)).take 128) else s

/-- `flags_line` (R314). -/
def State.flagsLine (s : State) (ln : Bytes) (row : Nat) : State := s.pairLine flagsBase 2 ln row

/-- `map_line` (R315). -/
def State.mapLine (s : State) (ln : Bytes) (row : Nat) : State := s.pairLine mapBase 32 ln row

/-- The note word of five digits `p1 p0 w v e` (R316): pitch, waveform, volume, effect and custom flag at
the positions of R150. -/
def textNote (p1 p0 w v e : BitVec 4) : Half :=
  (w.extractLsb' 3 1 ++ (e.extractLsb' 0 3 ++ (v.extractLsb' 0 3 ++ (w.extractLsb' 0 3 ++
    (p1.extractLsb' 0 2 ++ p0 : BitVec 6) : BitVec 9) : BitVec 12) : BitVec 15))

/-- The bytes of the notes, five digits each, from note `n` on (R316): a note with all its digits is stored
little-endian at bytes 2n and 2n+1. -/
def textNotes : Nat → Nat → List (BitVec 4) → List (Nat × Byte)
  | 0, _, _ => []
  | fuel + 1, n, p1 :: p0 :: w :: v :: e :: rest =>
    (2 * n, (textNote p1 p0 w v e).extractLsb' 0 8) :: (2 * n + 1, (textNote p1 p0 w v e).extractLsb' 8 8) ::
      textNotes fuel (n + 1) rest
  | _ + 1, _, _ => []

/-- `TEXT_SFX_LINE` (R316): what a line stores in its 68-byte record, as (index, byte) pairs in order. The
reference: four pairs to bytes 64 to 67, then 32 notes. -/
def sfxLineBytes (f : ParamFn) (ln : Bytes) : List (Nat × Byte) :=
  match f with
  | .reference =>
    let ds := hexRun ln
    (List.zip [64, 65, 66, 67] (digitPairs (ds.take 8))) ++ textNotes 32 0 (ds.drop 8)
  | .custom k => (Config.customSfxLine k ln).map fun q => (q.1.val, q.2)

/-- `TEXT_MUSIC_LINE` (R317): what a line stores in its 4-byte pattern. The reference: two digits of flags,
a space, four pairs; nothing when the line is malformed. -/
def musicLineBytes (f : ParamFn) (ln : Bytes) : List (Nat × Byte) :=
  match f with
  | .reference =>
    match digitPairs (hexRun (ln.take 2)), digitPairs ((hexRun (ln.drop 3)).take 8) with
    | [flags], [c0, c1, c2, c3] =>
      if ln.getD 2 0 = 0x20 then
        [(0, BitVec.ofBool (flags.getLsbD 0) ++ c0.extractLsb' 0 7),
         (1, BitVec.ofBool (flags.getLsbD 1) ++ c1.extractLsb' 0 7),
         (2, BitVec.ofBool (flags.getLsbD 2) ++ c2.extractLsb' 0 7),
         (3, BitVec.ofBool (flags.getLsbD 3) ++ c3.extractLsb' 0 7)]
      else []
    | _, _ => []
  | .custom k => (Config.customMusicLine k ln).map fun q => (q.1.val, q.2)

/-- (index, byte) pairs as (address, byte) pairs of the record at `base`. -/
def recordAt (base : Nat) (l : List (Nat × Byte)) : List (Nat × Byte) := l.map fun q => (base + q.1, q.2)

/-- `sfx_line` (R316): sound effect `row`. -/
def State.sfxLine (s : State) (ln : Bytes) (row : Nat) : State :=
  if row < 64 then s.pokePairs (recordAt (sfxBase + 68 * row) (sfxLineBytes s.cfg.textSfxLine ln)) else s

/-- `music_line` (R317): pattern `row`. -/
def State.musicLine (s : State) (ln : Bytes) (row : Nat) : State :=
  if row < 64 then s.pokePairs (recordAt (songBase + 4 * row) (musicLineBytes s.cfg.textMusicLine ln)) else s

/-- The script text with one more line (R312): a newline before it unless it is empty. -/
def appendLine (out ln : Bytes) : Bytes := if out = [] then ln else out ++ 0x0A :: ln

/-- A line of a data section (R310). -/
def State.dataLine (s : State) (sec : Section) (ln : Bytes) (row : Nat) : State :=
  match sec with
  | .graphics => s.gfxLine ln row
  | .flags => s.flagsLine ln row
  | .map => s.mapLine ln row
  | .sound => s.sfxLine ln row
  | .music => s.musicLine ln row
  | .none | .script | .skip => s

/-- The lines of a text cart in order (R310), with the section and row reached: the state, and whether the
script passed `CODE_CAP` (R312: TOO_LARGE, the only failure). The line that would pass it is dropped whole, with
the newline before it (DESIGN CHOICE, log entry 34). -/
def State.textLines : State → Section → Nat → List Bytes → State × Bool
  | s, _, _, [] => (s, true)
  | s, sec, row, ln :: rest =>
    match tagSection s.cfg.textTags ln with
    | some sec => s.textLines sec 0 rest
    | none =>
      if sec = .script then
        let out := appendLine s.dec.codeOut ln
        if s.cfg.codeCap < out.length then (s, false)
        else (s.withDec { s.dec with codeOut := out }).textLines sec row rest
      else (s.dataLine sec ln row).textLines sec (row + 1) rest

/-- `load_text` (R310) on an image that starts with the text header: the state afterwards, its script text
in `code_out`, and whether it loaded. `in_pos` (R50) stays as the reset before the load left it, 0, while and
after the text is read (DESIGN CHOICE, log entry 36). -/
def State.loadText (s : State) (file : Bytes) : State × Bool :=
  (s.withDec { s.dec with codeOut := [] }).textLines .none 0 (splitLines [] file)

end Sys2Proof.Machine
end

