-- ==== Sys2Proof/Machine/Loader.lean ====
section
/-! DEFINITION. The loader (41_png_container.md R190; 60_exceptions.md R480 to R482): the decoder pipeline,
token by token and stage by stage, and the `load_cart` command. -/

namespace Sys2Proof.Machine

/-! ## Between the stages -/

/-- The Adler-32 trailer behind the final block (R110, R198). DEDUCED: it starts at the next byte boundary
of the DEFLATE stream, big-endian; a trailer cut short is a mismatch. -/
def adlerOk (d : Decoder) : Bool :=
  let t := (d.stream.drop (alignUp d.inPos / 8)).take 4
  t.length == 4 && beValue t == adler32 d.raw

/-- The end of the inflate stage (R211, R229, R198): the output must be exactly `raw_cap` bytes; then the
first scanline is next. -/
def endInflate (s : State) : Out :=
  if s.dec.raw.length ≠ s.dec.rawCap then badDeflate s
  else if s.cfg.checkAdler && !adlerOk s.dec then badDeflate s
  else .next (s.withDec { s.dec with stage := .scanlines, inPos := 0, pix := [] })

/-- The end of the filter stage (R190, stages 5 to 7): extract, split, and the script decoder's start. -/
def endScanlines (s : State) : Out :=
  .next (s.splitPayload.withDec (s.splitPayload.dec.forScript s.cfg.codeCap))

/-- The save blob a running load still has to apply (R481): exactly 256 bytes, or it counts as absent. -/
def State.applySave (s : State) : State :=
  match s.dec.sav with
  | some sav => if sav.length = 256 then s.storeBlock persistBase sav else s
  | none => s

/-- The cart and error registers after a load that succeeded (R480, step 5). -/
def State.markLoaded (s : State) : State :=
  { s with errCause := .noError, cart := { s.cart with valid := true, codeLen := s.dec.codeOut.length } }

/-- Steps 5 to 8 of `load_cart` (R480), when the script text stands in `code_out`: the registers, the save
blob, the script engine, the result. R10 sets `CODE_CAP` no upper bound: a length of 2^31 or more goes on the
32-bit result port modulo 2^32 (DESIGN CHOICE, log entry 32). -/
def finishLoad (s : State) : Out :=
  andThen (callLoad (s.markLoaded.applySave.withDec { s.dec with stage := .idle })) fun t =>
    .next (t.returns (BitVec.ofNat 32 s.dec.codeOut.length))

/-- What follows when the running stage has nothing more to fetch. -/
def advance (s : State) : Out :=
  match s.dec.stage with
  | .inflateDone => endInflate s
  | .scanlines => endScanlines s
  | .newFormat | .legacy | .scriptDone => finishLoad s
  | .idle | .blockHeader | .blockTokens | .rawScript => .next s

/-! ## The pipeline -/

/-- A stream token executed. A command is no stream token: no stage fetches one. -/
def runToken (i : Instr) (s : State) : Out :=
  match i with
  | .dfStored final => execDfStored final s
  | .dfFixed final => execDfFixed final s
  | .dfDynamic final => execDfDynamic final s
  | .dfReserved final => execDfReserved final s
  | .dfLit sym => execDfLit sym s
  | .dfEob => execDfEob s
  | .dfLen lsym lextra dsym dextra => execDfLen lsym lextra dsym dextra s
  | .fltNone => execFltNone s
  | .fltSub => execFltSub s
  | .fltUp => execFltUp s
  | .fltAvg => execFltAvg s
  | .fltPaeth => execFltPaeth s
  | .nfLit index => execNfLit index s
  | .nfRef15 field length => execNfRef15 field length s
  | .nfRef10 field length => execNfRef10 field length s
  | .nfRef5 field length => execNfRef5 field length s
  | .nfRaw => execNfRaw s
  | .lgEsc b1 => execLgEsc b1 s
  | .lgSym b0 => execLgSym b0 s
  | .lgRef b0 b1 => execLgRef b0 b1 s
  | .rawScript => execRawScript s
  | .read8 .. | .read16 .. | .read32 .. | .write8 .. | .write16 .. | .write32 ..
  | .bulkCopy .. | .bulkFill .. => .fault .tokenOutsideStage
  | .reset | .loadCart .. | .run | .pause | .resume | .stop | .unload | .step
  | .queryError | .queryFps | .queryFrame => .fault .tokenOutsideStage
  | .setClip .. | .setCamera .. | .setColor .. | .setPalette .. | .setTransparent ..
  | .setFillPattern .. | .setCursor .. => .fault .tokenOutsideStage
  | .clear .. | .setPixel .. | .getPixel .. | .line .. | .rect .. | .rectFill .. | .circle ..
  | .circleFill .. | .ellipse .. | .ellipseFill .. => .fault .tokenOutsideStage
  | .sprite .. | .spriteScaled .. | .tileMap .. | .text .. => .fault .tokenOutsideStage
  | .sfx .. | .music .. | .setMasterVolume .. | .sample => .fault .tokenOutsideStage

/-- What the decoder does with what it fetched, its tokens executed by `run` (`step` executes them by
`exec`). A token that cannot be read leaves `in_pos` where its first bit is (DESIGN CHOICE, log entry 33). -/
def decoderAct (run : Instr → State → Out) (s : State) : Out :=
  match fetch s with
  | .token i pos => run i (s.consume pos)
  | .done => advance s
  | .bad c => .next (s.raiseLoadError c)
  | .missing => .fault .unspecifiedBuffer

/-- One step of the running decoder. -/
def decoderStep (s : State) : Out := decoderAct runToken s

/-- The decoder until its load ends, in at most the given number of steps. -/
def runDecoder : Nat → State → Out
  | 0, s => .next s
  | n + 1, s => if s.dec.stage = .idle then .next s else andThen (decoderStep s) (runDecoder n)

/-- How many decoder steps a load can take (42_inflate.md R232, 44_code_decompress.md R304): a token of the
inflate or a script stage consumes at least one bit, a filter byte is one scanline, and a few steps lead
from stage to stage. -/
def decoderFuel (d : Decoder) : Nat := 8 * d.idat.length + d.imgH + 8 * scriptSize + 16

/-- `load_png` (R190) and what follows it in `load_cart`. -/
def loadPng (s : State) (file : Bytes) : Out :=
  match pngFront s.cfg file with
  | .error c => .next (s.raiseLoadError c)
  | .ok (w, h, idat) =>
    let d := s.dec.forInflate w h idat
    runDecoder (decoderFuel d) (s.withDec d)

/-- `load_text` (R310) and what follows it in `load_cart`. -/
def loadTextCart (s : State) (file : Bytes) : Out :=
  let r := s.loadText file
  if r.2 then finishLoad r.1 else .next (r.1.raiseLoadError .tooLarge)

/-- `load_cart` (R480): the reset first, then the failure indication, the container, and its loader. -/
def execLoadCart (src : CartSource) (s : State) : Out :=
  match src with
  | .readFailure => .next (s.resetCore.raiseLoadError .ioError)
  | .image file sav =>
    let t := s.resetCore.withDec { s.resetCore.dec with file := file, sav := sav }
    match detectContainer file with
    | none => .next (t.raiseLoadError .badContainer)
    | some .png => loadPng t file
    | some .text => loadTextCart t file

end Sys2Proof.Machine
end

