-- ==== Sys2Proof/Machine/Dispatch.lean ====
section
/-! DEFINITION. The dispatch: one arm per instruction of spec/opcode_table.json, each one call of its
meaning. -/

namespace Sys2Proof.Machine

def exec (i : Instr) (s : State) : Host.Outcome State Fault Refusal :=
  match i with
  | .read8 addr => Sys2Proof.Machine.execRead8 addr s
  | .read16 addr => Sys2Proof.Machine.execRead16 addr s
  | .read32 addr => Sys2Proof.Machine.execRead32 addr s
  | .write8 addr v => Sys2Proof.Machine.execWrite8 addr v s
  | .write16 addr v => Sys2Proof.Machine.execWrite16 addr v s
  | .write32 addr v => Sys2Proof.Machine.execWrite32 addr v s
  | .bulkCopy dst src len => Sys2Proof.Machine.execBulkCopy dst src len s
  | .bulkFill dst value len => Sys2Proof.Machine.execBulkFill dst value len s
  | .reset => Sys2Proof.Machine.execReset s
  | .loadCart src => Sys2Proof.Machine.execLoadCart src s
  | .run => Sys2Proof.Machine.execRun s
  | .pause => Sys2Proof.Machine.execPause s
  | .resume => Sys2Proof.Machine.execResume s
  | .stop => Sys2Proof.Machine.execStop s
  | .unload => Sys2Proof.Machine.execUnload s
  | .step => Sys2Proof.Machine.execStep s
  | .queryError => Sys2Proof.Machine.execQueryError s
  | .queryFps => Sys2Proof.Machine.execQueryFps s
  | .queryFrame => Sys2Proof.Machine.execQueryFrame s
  | .setClip x y w h => Sys2Proof.Machine.execSetClip x y w h s
  | .setCamera x y => Sys2Proof.Machine.execSetCamera x y s
  | .setColor c => Sys2Proof.Machine.execSetColor c s
  | .setPalette c0 c1 p => Sys2Proof.Machine.execSetPalette c0 c1 p s
  | .setTransparent c t => Sys2Proof.Machine.execSetTransparent c t s
  | .setFillPattern pattern tr => Sys2Proof.Machine.execSetFillPattern pattern tr s
  | .setCursor x y c => Sys2Proof.Machine.execSetCursor x y c s
  | .clear c => Sys2Proof.Machine.execClear c s
  | .setPixel x y c => Sys2Proof.Machine.execSetPixel x y c s
  | .getPixel x y => Sys2Proof.Machine.execGetPixel x y s
  | .line x0 y0 x1 y1 c => Sys2Proof.Machine.execLine x0 y0 x1 y1 c s
  | .rect x0 y0 x1 y1 c => Sys2Proof.Machine.execRect x0 y0 x1 y1 c s
  | .rectFill x0 y0 x1 y1 c => Sys2Proof.Machine.execRectFill x0 y0 x1 y1 c s
  | .circle x y r c => Sys2Proof.Machine.execCircle x y r c s
  | .circleFill x y r c => Sys2Proof.Machine.execCircleFill x y r c s
  | .ellipse x0 y0 x1 y1 c => Sys2Proof.Machine.execEllipse x0 y0 x1 y1 c s
  | .ellipseFill x0 y0 x1 y1 c => Sys2Proof.Machine.execEllipseFill x0 y0 x1 y1 c s
  | .sprite n x y w h flipX flipY => Sys2Proof.Machine.execSprite n x y w h flipX flipY s
  | .spriteScaled sx sy sw sh dx dy dw dh flipX flipY => Sys2Proof.Machine.execSpriteScaled sx sy sw sh dx dy dw dh flipX flipY s
  | .tileMap cx0 cy0 sx sy cw ch layers => Sys2Proof.Machine.execTileMap cx0 cy0 sx sy cw ch layers s
  | .text str x y c => Sys2Proof.Machine.execText str x y c s
  | .sfx n channel offset => Sys2Proof.Machine.execSfx n channel offset s
  | .music n => Sys2Proof.Machine.execMusic n s
  | .setMasterVolume v => Sys2Proof.Machine.execSetMasterVolume v s
  | .sample => Sys2Proof.Machine.execSample s
  | .dfStored final => Sys2Proof.Machine.execDfStored final s
  | .dfFixed final => Sys2Proof.Machine.execDfFixed final s
  | .dfDynamic final => Sys2Proof.Machine.execDfDynamic final s
  | .dfReserved final => Sys2Proof.Machine.execDfReserved final s
  | .dfLit sym => Sys2Proof.Machine.execDfLit sym s
  | .dfEob => Sys2Proof.Machine.execDfEob s
  | .dfLen lsym lextra dsym dextra => Sys2Proof.Machine.execDfLen lsym lextra dsym dextra s
  | .fltNone => Sys2Proof.Machine.execFltNone s
  | .fltSub => Sys2Proof.Machine.execFltSub s
  | .fltUp => Sys2Proof.Machine.execFltUp s
  | .fltAvg => Sys2Proof.Machine.execFltAvg s
  | .fltPaeth => Sys2Proof.Machine.execFltPaeth s
  | .nfLit index => Sys2Proof.Machine.execNfLit index s
  | .nfRef15 field length => Sys2Proof.Machine.execNfRef15 field length s
  | .nfRef10 field length => Sys2Proof.Machine.execNfRef10 field length s
  | .nfRef5 field length => Sys2Proof.Machine.execNfRef5 field length s
  | .nfRaw => Sys2Proof.Machine.execNfRaw s
  | .lgEsc b1 => Sys2Proof.Machine.execLgEsc b1 s
  | .lgSym b0 => Sys2Proof.Machine.execLgSym b0 s
  | .lgRef b0 b1 => Sys2Proof.Machine.execLgRef b0 b1 s
  | .rawScript => Sys2Proof.Machine.execRawScript s

end Sys2Proof.Machine
end

