-- ==== Sys2Proof/Machine/Step.lean ====
section
/-! DEFINITION. One step of the machine: the next command of the ports, or the next token of a running
decoder stage. -/

namespace Sys2Proof.Machine

/-- The state with the oldest request taken off the ports. -/
def State.popPort (s : State) : State := { s with port := s.port.drop 1 }

/-- One step on the ports (30_encoding.md R100, R156; 20_memory.md R90, R91): with nothing issued, or a
command not yet complete, the machine waits; a reserved encoding is taken and ignored; a command is taken
and executed. -/
def portStep (s : State) : Host.Outcome State Fault Refusal :=
  match s.port with
  | [] => .next s
  | r :: _ =>
    match decodeCommand r with
    | .ok i => exec i s.popPort
    | .error .noHeader | .error .missingWords => .next s
    | .error .reservedOpcode | .error .reservedHeaderBits | .error .reservedPresence => .next s.popPort.ignored
    | .error .exhausted | .error .badSymbol | .error .badIndex | .error .badFilter => .next s.popPort.ignored

/-- One step: a running decoder stage goes first, since a command is accepted only when the one before it is
complete (R100). -/
def step (s : State) : Host.Outcome State Fault Refusal :=
  if s.dec.stage = .idle then portStep s else decoderAct exec s

/-- The state whose next step fetches and runs the instruction with these table bits: a command is put at
the head of the ports; a scanline filter byte is put at the start of the `raw` of a 1 by 1 image; any other
8-bit row is put at the start of a new-format stream. -/
def State.withFetchWord (s : State) (nbits w : Nat) : State :=
  if 8 < nbits then
    { s with port := tableRequest w :: s.port, dec := { s.dec with stage := .idle } }
  else if w ≤ 4 then
    s.withDec { s.dec with
      stage := .scanlines
      inPos := 0
      imgW := 1
      imgH := 1
      raw := [BitVec.ofNat 8 w, 0, 0, 0, 0]
      pix := [] }
  else
    s.withDec { s.dec with
      stage := .newFormat
      inPos := 0
      script := List.replicate s.cfg.codeStreamOff 0 ++ tableStream w
      codeOut := []
      mtf := mtfInit
      limit := 65536 }

end Sys2Proof.Machine
end

