-- ==== Sys2Proof/Safety.lean ====
section
/-! DEFINITION. The terms the statements use: what a command may write, which commands draw, the shapes they
draw, the required operands, the content reset leaves, and the invariants of the machine. -/

namespace Sys2Proof

/-! ## Kinds of instruction -/

/-- Is this one of the commands that draw through the pixel-write path (46_raster_state.md R339: every
primitive but `clear`)? -/
def Instr.draws : Instr → Bool
  | .setPixel .. | .line .. | .rect .. | .rectFill .. | .circle .. | .circleFill .. | .ellipse .. => true
  | .ellipseFill .. | .sprite .. | .spriteScaled .. | .tileMap .. | .text .. => true
  | .read8 .. | .read16 .. | .read32 .. | .write8 .. | .write16 .. | .write32 ..
  | .bulkCopy .. | .bulkFill .. => false
  | .reset | .loadCart .. | .run | .pause | .resume | .stop | .unload | .step
  | .queryError | .queryFps | .queryFrame => false
  | .setClip .. | .setCamera .. | .setColor .. | .setPalette .. | .setTransparent ..
  | .setFillPattern .. | .setCursor .. => false
  | .clear .. | .getPixel .. => false
  | .sfx .. | .music .. | .setMasterVolume .. | .sample => false
  | .dfStored .. | .dfFixed .. | .dfDynamic .. | .dfReserved .. | .dfLit .. | .dfEob | .dfLen .. => false
  | .fltNone | .fltSub | .fltUp | .fltAvg | .fltPaeth => false
  | .nfLit .. | .nfRef15 .. | .nfRef10 .. | .nfRef5 .. | .nfRaw => false
  | .lgEsc .. | .lgSym .. | .lgRef .. | .rawScript => false

/-- Does a command lack an operand that 30_encoding.md R101 does not mark optional? -/
def Instr.lacksRequired : Instr → Bool
  | .read8 a | .read16 a | .read32 a => a.isNone
  | .write8 a v | .write16 a v | .write32 a v => a.isNone || v.isNone
  | .bulkCopy a b c | .bulkFill a b c => a.isNone || b.isNone || c.isNone
  | .setPixel x y _ | .getPixel x y | .line x y _ _ _ | .circle x y _ _ | .circleFill x y _ _ =>
    x.isNone || y.isNone
  | .rect a b c d _ | .rectFill a b c d _ | .ellipse a b c d _ | .ellipseFill a b c d _ =>
    a.isNone || b.isNone || c.isNone || d.isNone
  | .sprite n x y _ _ _ _ => n.isNone || x.isNone || y.isNone
  | .spriteScaled a b c d e f _ _ _ _ | .tileMap a b c d e f _ =>
    a.isNone || b.isNone || c.isNone || d.isNone || e.isNone || f.isNone
  | .sfx n _ _ | .music n | .setMasterVolume n => n.isNone
  | .reset | .loadCart .. | .run | .pause | .resume | .stop | .unload | .step
  | .queryError | .queryFps | .queryFrame => false
  | .setClip .. | .setCamera .. | .setColor .. | .setPalette .. | .setTransparent ..
  | .setFillPattern .. | .setCursor .. | .clear .. | .text .. | .sample => false
  | .dfStored .. | .dfFixed .. | .dfDynamic .. | .dfReserved .. | .dfLit .. | .dfEob | .dfLen .. => false
  | .fltNone | .fltSub | .fltUp | .fltAvg | .fltPaeth => false
  | .nfLit .. | .nfRef15 .. | .nfRef10 .. | .nfRef5 .. | .nfRaw => false
  | .lgEsc .. | .lgSym .. | .lgRef .. | .rawScript => false

end Sys2Proof

namespace Sys2Proof.Machine

/-! ## What a command may write -/

/-- `t` is `s` but for bytes of the memory at addresses of which `P` holds, and its memory is in canonical
form if that of `s` is. -/
def WritesOnly (P : Nat → Prop) (s t : State) : Prop :=
  t = s.withMem t.mem ∧ (s.mem.wf = true → t.mem.wf = true ∧ ∀ a, ¬ P a → t.peek a = s.peek a)

/-- An address of the framebuffer (10_state.md R23). -/
def inScreen (a : Nat) : Prop := 0x6000 ≤ a ∧ a < 0x8000

/-- The draw-state bytes a drawing command may write (47_raster_primitives.md R380, 48_raster_blit_text.md
R410): the pen when a colour is supplied; the line-continuation point; the text cursor. -/
def drawStateByte (l : Layout) (i : Instr) (a : Nat) : Prop :=
  match i with
  | .setPixel _ _ c | .circle _ _ _ c | .circleFill _ _ _ c => c.isSome ∧ a = l.pen
  | .rect _ _ _ _ c | .rectFill _ _ _ _ c | .ellipse _ _ _ _ c | .ellipseFill _ _ _ _ c => c.isSome ∧ a = l.pen
  | .line _ _ _ _ c =>
    (c.isSome ∧ a = l.pen) ∨ (l.lineX ≤ a ∧ a < l.lineX + 2) ∨ (l.lineY ≤ a ∧ a < l.lineY + 2)
  | .text _ _ _ c => (c.isSome ∧ a = l.pen) ∨ a = l.cursorX ∨ a = l.cursorY
  | _ => False

/-! ## Shapes -/

/-- The screen after a pen-based command with colour operand `c` that draws `shape` (screen coordinates):
every on-screen pixel of the shape is as one `pixel_write` with the pen leaves it, every other pixel is
unchanged (46_raster_state.md R337, R338). -/
def DrawsShape (s : State) (c : Operand) (shape : Int → Int → Prop) (t : State) : Prop :=
  ∀ x y, onSheet x y = true →
    (shape x y → t.pget screenBase x y = ((s.colorStep c).plot x y).pget screenBase x y) ∧
    (¬ shape x y → t.pget screenBase x y = s.pget screenBase x y)

/-- The pen after a pen-based command with colour operand `c` (46_raster_state.md R338): a supplied colour stays
in it, and without one it is unchanged. -/
def PenAfter (s : State) (c : Operand) (t : State) : Prop :=
  (∀ w, c = some w → t.pen = w.extractLsb' 0 8) ∧ (c = none → t.pen = s.pen)

/-- The screen after a blit from sheet position (`u x y`, `v x y`) to the pixels of `shape`: each as one
`blit_pixel` leaves it, every other pixel unchanged (48_raster_blit_text.md R393). -/
def BlitsShape (s : State) (shape : Int → Int → Prop) (u v : Int → Int → Int) (t : State) : Prop :=
  ∀ x y, onSheet x y = true →
    (shape x y → t.pget screenBase x y = (s.blitPixel x y (u x y) (v x y)).pget screenBase x y) ∧
    (¬ shape x y → t.pget screenBase x y = s.pget screenBase x y)

/-! ## Memory commands -/

/-- Is an access of `n` bytes at `a` wholly inside the memory (20_memory.md R76)? -/
abbrev accessOk (a : Word) (n : Nat) : Prop := 0 ≤ a.toInt ∧ a.toInt + n ≤ 0x8000

/-- The effect of storing the `n` low bytes of `v` at `a`, or nothing when the access is not wholly in range
(20_memory.md R79). -/
def StoresWord (n : Nat) (a v : Word) (s t : State) : Prop :=
  t = { s with mem := t.mem, result := t.result } ∧
  (accessOk a n → ∀ i, i < n → t.peek (a.toNat + i) = v.extractLsb' (8 * i) 8) ∧
  (accessOk a n → ∀ x, x < a.toNat ∨ a.toNat + n ≤ x → t.peek x = s.peek x) ∧
  (¬ accessOk a n → t.mem = s.mem)

/-! ## Voices -/

/-- A channel at the start of note `k` of sound effect `n`, with the fields of its note word cached
(49_synth.md R440, R443; 30_encoding.md R150). -/
def State.startNote (s : State) (n : Fin 64) (k : Fin 32) (c : Channel) : Channel :=
  let w := s.peek16 (0x3200 + 68 * n.val + 2 * k.val)
  let freq := BitVec.ofNat 32 (s.cfg.noteFreq.getD (w.toNat % 64) 0)
  { c with
    noteIdx := k
    tickCtr := 0
    phase := 0
    phaseInc := BitVec.ofNat 32 (freq.toNat * 65536 / s.cfg.sampleRate)
    freq := freq
    wave := w.extractLsb' 6 3
    vol := w.extractLsb' 9 3
    effect := w.extractLsb' 12 3
    custom := w.getLsbD 15 }

/-- A channel `p` with its note in place sounds (49_synth.md R440, R447): it becomes `q`, its phase advanced and
its noise register clocked once for each wrap of the phase position while its waveform is 6, and adds `term` to
the mix, the waveform at the phase before the advance scaled by the volume. -/
def Sounds (cfg : Config) (p q : Channel) (term : Int) : Prop :=
  q = { p with
    phase := p.phase + p.phaseInc
    lfsr := if p.wave = 6 then
        lfsrClocks cfg.lfsrStep ((p.phase.toNat + p.phaseInc.toNat) / 65536 - p.phase.toNat / 65536) p.lfsr
      else p.lfsr } ∧
  term = (waveSample cfg.wave p.wave (p.phase.extractLsb' 0 16) p.lfsr * (p.vol.toNat * 32)).tdiv 256

/-! ## Reset -/

/-- What `reset` leaves at an address outside the save slots, for the default `LAYOUT` (10_state.md R65,
70_reset_and_hazards.md R514). -/
def resetByte (pen : Byte) (a : Nat) : Byte :=
  if a = 0x5F00 then 0x10
  else if 0x5F01 ≤ a ∧ a ≤ 0x5F0F then BitVec.ofNat 8 (a - 0x5F00)
  else if 0x5F10 ≤ a ∧ a ≤ 0x5F1F then BitVec.ofNat 8 (a - 0x5F10)
  else if a = 0x5F22 ∨ a = 0x5F23 then 128
  else if a = 0x5F25 then pen
  else if a = 0x5F55 then 0x60
  else if a = 0x5F56 then 0x20
  else if a = 0x5F57 then 0x80
  else 0

/-! ## Invariants -/

/-- The decoder's buffers stay inside their capacities (42_inflate.md R212, 44_code_decompress.md R271,
R273), and the filter stage works on a complete `raw` and stands at a line's start
(43_png_unfilter_extract.md R250, R257). -/
def Decoder.Bounded (cfg : Config) (d : Decoder) : Prop :=
  d.raw.length ≤ d.rawCap ∧ d.limit ≤ cfg.codeCap ∧ d.codeOut.length ≤ cfg.codeCap ∧
  (d.stage = .scanlines → d.raw.length = d.rawCap ∧
    ∃ y, y ≤ d.imgH ∧ d.inPos = y * (d.stride + 1) ∧ d.pix.length = y * d.stride)

/-- The move-to-front table is a permutation of 0..255 while the new-format decoder runs
(44_code_decompress.md R276). -/
def Decoder.TablePermuted (d : Decoder) : Prop := d.stage = .newFormat → d.mtf.Perm mtfInit

/-- The cart registers agree (10_state.md R54, 60_exceptions.md R474): the script length is within
`CODE_CAP`, and 0 while the cart is not valid. -/
def Cart.Consistent (cfg : Config) (c : Cart) : Prop :=
  c.codeLen ≤ cfg.codeCap ∧ (c.valid = false → c.codeLen = 0)

/-- The machine's invariant beside the memory's canonical form. -/
def State.Sound (s : State) : Prop :=
  s.dec.Bounded s.cfg ∧ s.dec.TablePermuted ∧ s.cart.Consistent s.cfg

end Sys2Proof.Machine
end

