-- ==== Sys2Proof/Certificates/Slice0/Obligations.lean ====
section
/-! DEFINITION. The statements for the provers. Each is about every state and every operand that meet its
hypotheses; where a hypothesis asks for the memory's canonical form or a legal `LAYOUT`, the invariants below
and `Config.ok` say that every state reached has them. `result := none` after a command that delivers nothing is
the model's (log entry 6). -/

open Sys2Proof Sys2Proof.Machine

/-! ## Memory commands -/

/-- R78, R160 to R162: a read delivers the little-endian value of the bytes addressed when the access is
wholly in range, else 0, and changes nothing but the result port. -/
def Obligations.ReadValue : Prop := ∀ (s : State) (a : Word),
  (accessOk a 1 → exec (.read8 (some a)) s =
    .next { s with result := some (BitVec.ofNat 32 (s.peek a.toNat).toNat) }) ∧
  (accessOk a 2 → exec (.read16 (some a)) s =
    .next { s with
      result := some (BitVec.ofNat 32 ((s.peek a.toNat).toNat + 2 ^ 8 * (s.peek (a.toNat + 1)).toNat)) }) ∧
  (accessOk a 4 → exec (.read32 (some a)) s =
    .next { s with
      result := some (BitVec.ofNat 32 ((s.peek a.toNat).toNat + 2 ^ 8 * (s.peek (a.toNat + 1)).toNat +
        2 ^ 16 * (s.peek (a.toNat + 2)).toNat + 2 ^ 24 * (s.peek (a.toNat + 3)).toNat)) }) ∧
  (¬ accessOk a 1 → exec (.read8 (some a)) s = .next { s with result := some 0 }) ∧
  (¬ accessOk a 2 → exec (.read16 (some a)) s = .next { s with result := some 0 }) ∧
  (¬ accessOk a 4 → exec (.read32 (some a)) s = .next { s with result := some 0 })

/-- R79, R163 to R165: a write stores the low bytes of its value, lowest first, when the access is wholly in
range, and no byte otherwise; no other byte and no register but the result port changes. -/
def Obligations.WriteValue : Prop := ∀ (s : State) (a v : Word), s.mem.wf = true →
  (∃ t, exec (.write8 (some a) (some v)) s = .next t ∧ StoresWord 1 a v s t) ∧
  (∃ t, exec (.write16 (some a) (some v)) s = .next t ∧ StoresWord 2 a v s t) ∧
  (∃ t, exec (.write32 (some a) (some v)) s = .next t ∧ StoresWord 4 a v s t)

/-- R170: `bulk_copy` (opcode 0x06) moves a prefix of the requested bytes, as if the source were read whole first; no other
byte changes. -/
def Obligations.BulkCopyMoves : Prop := ∀ (s : State) (d r n : Word), s.mem.wf = true →
  ∃ t, exec (.bulkCopy (some d) (some r) (some n)) s = .next t ∧
    t = { s with mem := t.mem, result := t.result } ∧
    (0 < n.toInt ∧ 0 ≤ d.toInt ∧ d.toInt < 0x8000 ∧ 0 ≤ r.toInt ∧ r.toInt < 0x8000 →
      ∀ x : Nat,
        (d.toInt ≤ x ∧ (x : Int) < d.toInt + min n.toInt (min (0x8000 - d.toInt) (0x8000 - r.toInt)) →
          t.peek x = s.peek (r.toNat + (x - d.toNat))) ∧
        (¬ (d.toInt ≤ x ∧ (x : Int) < d.toInt + min n.toInt (min (0x8000 - d.toInt) (0x8000 - r.toInt))) →
          t.peek x = s.peek x)) ∧
    (n.toInt ≤ 0 ∨ d.toInt < 0 ∨ 0x8000 ≤ d.toInt ∨ r.toInt < 0 ∨ 0x8000 ≤ r.toInt → t.mem = s.mem) ∧
    decodeCommand ⟨[0x00070006, d, r, n], .empty⟩ = .ok (.bulkCopy (some d) (some r) (some n))

/-- R172: `bulk_fill` (opcode 0x07) stores the low byte of its value over the clamped range; no other byte changes. -/
def Obligations.BulkFillStores : Prop := ∀ (s : State) (d v n : Word), s.mem.wf = true →
  ∃ t, exec (.bulkFill (some d) (some v) (some n)) s = .next t ∧
    t = { s with mem := t.mem, result := t.result } ∧
    (0 < n.toInt ∧ 0 ≤ d.toInt ∧ d.toInt < 0x8000 →
      ∀ x : Nat,
        (d.toInt ≤ x ∧ (x : Int) < d.toInt + min n.toInt (0x8000 - d.toInt) →
          t.peek x = v.extractLsb' 0 8) ∧
        (¬ (d.toInt ≤ x ∧ (x : Int) < d.toInt + min n.toInt (0x8000 - d.toInt)) → t.peek x = s.peek x)) ∧
    (n.toInt ≤ 0 ∨ d.toInt < 0 ∨ 0x8000 ≤ d.toInt → t.mem = s.mem) ∧
    decodeCommand ⟨[0x00070007, d, v, n], .empty⟩ = .ok (.bulkFill (some d) (some v) (some n))

/-- R101: a command whose required operand is unsupplied changes nothing and returns 0. -/
def Obligations.MissingOperandIgnored : Prop := ∀ (i : Instr) (s : State), i.lacksRequired = true →
  exec i s = .next { s with result := some 0 }

/-! ## Reset -/

/-- R512 to R514, R65: the state `reset` leaves, from any state, for the default `LAYOUT`; a second one
leaves it as it is. The ports and the script engine's answers to come, which the model holds in the same
record, stay (log entries 3 and 4). -/
def Obligations.ResetLeaves : Prop := ∀ s : State, s.mem.wf = true → s.cfg.layout = Layout.default →
  ∃ t, exec .reset s = .next t ∧
    (∀ a, 0x5E00 ≤ a ∧ a ≤ 0x5EFF → t.peek a = s.peek a) ∧
    (∀ a, a < 0x5E00 ∨ 0x5EFF < a → t.peek a = resetByte s.cfg.defaultPen a) ∧
    (∀ c, t.channels.get c =
      { sfxIdx := none, noteIdx := 0, tickCtr := 0, samplesPerTick := 0, phase := 0, phaseInc := 0, freq := 0,
        wave := 0, vol := 0, effect := 0, custom := false, lfsr := s.cfg.lfsrSeed }) ∧
    t.mus = { pattern := none, tick := 0, loop := false } ∧ t.masterVol = s.cfg.masterVolReset ∧
    t.cart = { valid := false, version := 0, codeLen := 0 } ∧ t.errCause = .noError ∧
    t.vm = { state := .stopped, frame := 0, fps := .fps30, hasInit := false, hasUpdate := false,
             hasUpdate60 := false, hasDraw := false, committed := false, errorMsg := [] } ∧
    t.dec.stage = .idle ∧ t.result = none ∧ t.cfg = s.cfg ∧ t.port = s.port ∧ t.sampleOut = s.sampleOut ∧
    t.loadAnswers = s.loadAnswers ∧ t.hookAnswers = s.hookAnswers ∧ t.engineCalls = s.engineCalls ∧
    exec .reset t = .next t

/-- The state after reset meets the invariants, and `reset` leaves it as it is. The empty save slots and
decoder buffers in it are the model's choice (log entries 1 and 2). -/
def Obligations.ResetStateIsSound : Prop :=
  State.reset.mem.wf = true ∧ State.reset.Sound ∧ exec .reset State.reset = .next State.reset

/-! ## Lifecycle -/

/-- R485: `pause` and `resume` toggle Running and Paused and do nothing in any other state; sampling is not
gated by the lifecycle state. -/
def Obligations.PauseResumeToggle : Prop := ∀ s : State,
  (s.vm.state = .running → exec .pause s =
    .next { s with vm := { s.vm with state := .paused }, result := none }) ∧
  (s.vm.state ≠ .running → exec .pause s = .next { s with result := none }) ∧
  (s.vm.state = .paused → exec .resume s =
    .next { s with vm := { s.vm with state := .running }, result := none }) ∧
  (s.vm.state ≠ .paused → exec .resume s = .next { s with result := none }) ∧
  (∀ v : Controller, exec .sample { s with vm := v } =
    andThen (exec .sample s) fun t => .next { t with vm := v })

/-- R486: `stop` and `unload` (opcodes 0x15, 0x16) make the state Stopped from any state and change nothing else
but what stands on the result port. -/
def Obligations.StopUnloadStop : Prop := ∀ s : State,
  (∃ t, exec .stop s = .next t ∧ t = { s with vm := { s.vm with state := .stopped }, result := t.result }) ∧
  (∃ t, exec .unload s = .next t ∧ t = { s with vm := { s.vm with state := .stopped }, result := t.result }) ∧
  decodeCommand ⟨[0x00000015], .empty⟩ = .ok .stop ∧ decodeCommand ⟨[0x00000016], .empty⟩ = .ok .unload

/-- R489, R495, R530: the commands of a hook's trace always run to the end, and change no controller, cart, error or
decoder register. Each sample step among them delivers one sample behind those delivered before, and nothing else
reaches the sample port (R47, R536; that the port keeps every sample is log entry 37). That they leave the master volume alone rests on log entry 9: R489 does not list
`set_master_volume`, so no trace holds it. -/
def Obligations.TraceRunsToEnd : Prop := ∀ (tr : List TraceItem) (s : State),
  ∃ t, runTrace tr s = .next t ∧ t.vm = s.vm ∧ t.cart = s.cart ∧ t.errCause = s.errCause ∧ t.dec = s.dec ∧
    t.cfg = s.cfg ∧ t.masterVol = s.masterVol ∧ t.port = s.port ∧ t.hookAnswers = s.hookAnswers ∧
    t.engineCalls = s.engineCalls ∧
    ∃ samples, t.sampleOut = s.sampleOut ++ samples ∧ samples.length = tr.countP (fun i => i.val = .sample)

/-- R484: `run` from Stopped or Paused enters Running and calls the init hook when the cart has one, whose
failure is Error with its message; from Running and Error it does nothing. -/
def Obligations.RunCallsInit : Prop := ∀ s : State,
  ((s.vm.state = .running ∨ s.vm.state = .error) → exec .run s = .next { s with result := none }) ∧
  ((s.vm.state = .stopped ∨ s.vm.state = .paused) → s.vm.hasInit = false →
    exec .run s = .next { s with vm := { s.vm with state := .running }, result := none }) ∧
  ((s.vm.state = .stopped ∨ s.vm.state = .paused) → s.vm.hasInit = true →
    ∃ t, runTrace (s.nextHookAnswer .init).trace
        { s with vm := { s.vm with state := .running }
                 hookAnswers := s.hookAnswers.drop 1, engineCalls := s.engineCalls + 1 } = .next t ∧
      ((s.nextHookAnswer .init).ok = true → exec .run s = .next { t with result := none }) ∧
      ((s.nextHookAnswer .init).ok = false → exec .run s =
        .next { t with vm := { t.vm with state := .error, errorMsg := (s.nextHookAnswer .init).msg }
                       result := none }))

/-- R488, R492: `step` does nothing unless Running; a frame without hooks commits, counts the pattern tick
while a pattern is active, and counts the frame. -/
def Obligations.StepWithoutHooks : Prop := ∀ s : State,
  (s.vm.state ≠ .running → exec .step s = .next { s with result := none }) ∧
  (s.vm.state = .running → s.vm.hasUpdate60 = false → s.vm.hasUpdate = false → s.vm.hasDraw = false →
    exec .step s = .next { s with
      mus := if s.mus.pattern = none then s.mus else { s.mus with tick := s.mus.tick + 1 }
      vm := { s.vm with committed := true, frame := s.vm.frame + 1 }
      result := none })

/-- R488: the hooks of a frame: the update hook, the 60 Hz one when the cart has it, then the draw hook. The
first one's trace runs with the frame uncommitted. A failure with a non-empty message stops the frame in
Error, before a draw hook that would follow; any other outcome goes on, and the last hook's commits the
frame. -/
def Obligations.StepCallsHooks : Prop := ∀ (s : State) (h : Hook),
  s.vm.state = .running →
  ((h = .update60 ∧ s.vm.hasUpdate60 = true) ∨
    (h = .update ∧ s.vm.hasUpdate60 = false ∧ s.vm.hasUpdate = true) ∨
    (h = .draw ∧ s.vm.hasUpdate60 = false ∧ s.vm.hasUpdate = false ∧ s.vm.hasDraw = true)) →
  ∃ t, runTrace (s.nextHookAnswer h).trace
      { s with vm := { s.vm with committed := false }
               hookAnswers := s.hookAnswers.drop 1, engineCalls := s.engineCalls + 1 } = .next t ∧
    ((s.nextHookAnswer h).ok = false ∧ (s.nextHookAnswer h).msg ≠ [] → exec .step s =
      .next { t with vm := { t.vm with state := .error, errorMsg := (s.nextHookAnswer h).msg }
                     result := none }) ∧
    ((s.nextHookAnswer h).ok = true ∨ (s.nextHookAnswer h).msg = [] → (h = .draw ∨ s.vm.hasDraw = false) →
      exec .step s =
        .next { t with
          mus := if t.mus.pattern = none then t.mus else { t.mus with tick := t.mus.tick + 1 }
          vm := { t.vm with committed := true, frame := t.vm.frame + 1 }
          result := none }) ∧
    ((s.nextHookAnswer h).ok = true ∨ (s.nextHookAnswer h).msg = [] → h ≠ .draw → s.vm.hasDraw = true →
      ∃ u, runTrace (t.nextHookAnswer .draw).trace
          { t with hookAnswers := t.hookAnswers.drop 1, engineCalls := t.engineCalls + 1 } = .next u ∧
        ((t.nextHookAnswer .draw).ok = false ∧ (t.nextHookAnswer .draw).msg ≠ [] → exec .step s =
          .next { u with vm := { u.vm with state := .error, errorMsg := (t.nextHookAnswer .draw).msg }
                         result := none }) ∧
        ((t.nextHookAnswer .draw).ok = true ∨ (t.nextHookAnswer .draw).msg = [] → exec .step s =
          .next { u with
            mus := if u.mus.pattern = none then u.mus else { u.mus with tick := u.mus.tick + 1 }
            vm := { u.vm with committed := true, frame := u.vm.frame + 1 }
            result := none }))

/-- R490: the queries (opcodes 0x18 to 0x1A) deliver the cause code, the frame rate and the frame count and change nothing else. -/
def Obligations.QueriesDeliver : Prop := ∀ s : State,
  exec .queryError s = .next { s with result := some (match s.errCause with
    | .noError => 0 | .badContainer => 1 | .badPng => 2 | .unsupportedPng => 3 | .tooLarge => 4
    | .badDeflate => 5 | .badFilter => 6 | .badCodeStream => 7 | .ioError => 8) } ∧
  exec .queryFps s = .next { s with result := some (match s.vm.fps with | .fps30 => 30 | .fps60 => 60) } ∧
  exec .queryFrame s = .next { s with result := some s.vm.frame } ∧
  decodeCommand ⟨[0x00000018], .empty⟩ = .ok .queryError ∧
  decodeCommand ⟨[0x00000019], .empty⟩ = .ok .queryFps ∧
  decodeCommand ⟨[0x0000001A], .empty⟩ = .ok .queryFrame

/-! ## Load -/

/-- R476, R480, R474: a read failure, and an image of neither container format, end the load after its reset:
the cause is recorded, the cart is invalid, the sentinel is the result. -/
def Obligations.LoadRefusedEarly : Prop := ∀ (s : State) (file : Bytes) (sav : Option Bytes),
  (∃ t, exec (.loadCart .readFailure) s = .next t ∧ t.errCause = .ioError ∧
    t.result = some (BitVec.ofInt 32 s.cfg.errSentinel) ∧ t.cart = { valid := false, version := 0, codeLen := 0 } ∧
    t.vm = s.resetCore.vm ∧ t.mem = s.resetCore.mem ∧ t.channels = s.resetCore.channels ∧
    t.dec.stage = .idle) ∧
  (file.take 8 ≠ [0x89, 0x50, 0x4E, 0x47, 0x0D, 0x0A, 0x1A, 0x0A] →
    file.take 16 ≠ [0x70, 0x69, 0x63, 0x6F, 0x2D, 0x38, 0x20, 0x63, 0x61, 0x72, 0x74, 0x72, 0x69, 0x64, 0x67, 0x65] →
    ∃ t, exec (.loadCart (.image file sav)) s = .next t ∧ t.errCause = .badContainer ∧
      t.result = some (BitVec.ofInt 32 s.cfg.errSentinel) ∧
      t.cart = { valid := false, version := 0, codeLen := 0 } ∧ t.vm = s.resetCore.vm ∧
      t.mem = s.resetCore.mem ∧ t.channels = s.resetCore.channels ∧ t.dec.stage = .idle)

/-- R310, R312, R480 to R482, R491: a text cart whose script section is one line loads: the line is the script
text, the cart is valid, its length is the result, an exact save blob is in the save slots, and the controller has
what the script engine answers. The answers' list is the model's (log entry 4). -/
def Obligations.LoadsTextScript : Prop := ∀ (s : State) (body : Bytes) (sav : Option Bytes) (a : LoadAnswer)
    (rest : List LoadAnswer),
  s.mem.wf = true → s.cfg.ok = true → s.cfg.textTags = TextTags.default → s.loadAnswers = a :: rest →
  body ≠ [] → (0x0A : Byte) ∉ body → body.getLast? ≠ some 0x0D → body.take 2 ≠ [0x5F, 0x5F] →
  body.length ≤ s.cfg.codeCap →
  ∃ t, exec (.loadCart (.image
      ([0x70, 0x69, 0x63, 0x6F, 0x2D, 0x38, 0x20, 0x63, 0x61, 0x72, 0x74, 0x72, 0x69, 0x64, 0x67, 0x65, 0x0A,
        0x5F, 0x5F, 0x6C, 0x75, 0x61, 0x5F, 0x5F, 0x0A] ++ body) sav)) s = .next t ∧
    t.result = some (BitVec.ofNat 32 body.length) ∧ t.errCause = .noError ∧
    t.cart = { valid := true, version := 0, codeLen := body.length } ∧ t.dec.codeOut = body ∧
    t.dec.stage = .idle ∧ t.loadAnswers = rest ∧
    (a.ok = true → t.vm = { s.resetCore.vm with
      hasInit := a.hasInit
      hasUpdate := a.hasUpdate
      hasUpdate60 := a.hasUpdate60
      hasDraw := a.hasDraw
      fps := if a.hasUpdate60 then .fps60 else .fps30 }) ∧
    (a.ok = false → t.vm = { s.resetCore.vm with state := .error, errorMsg := a.msg }) ∧
    (a.trace = [] → ∀ x, t.peek x = match sav with
      | some blob => if blob.length = 256 ∧ 0x5E00 ≤ x ∧ x < 0x5F00 then blob.getD (x - 0x5E00) 0
        else s.resetCore.peek x
      | none => s.resetCore.peek x)

/-- R478: `load_cart` always ends, for every byte string and every save blob, with either the sentinel and an
invalid cart or a length within `CODE_CAP` and a valid one; `idat`, `raw`, `pix`, `payload`, `code_out` and the
code lengths stay within their capacities; after a failure no byte of the memory outside 0x0000..0x42FF differs
from what the load's reset left; and, where the script engine issues no command at the load (its answers' list is
the model's, log entry 4), none but those and the save slots does after a success. -/
def Obligations.LoadIsSafe : Prop := ∀ (s : State) (src : CartSource), s.mem.wf = true → s.cfg.ok = true →
  ∃ t, exec (.loadCart src) s = .next t ∧ t.mem.wf = true ∧ t.cfg = s.cfg ∧ t.dec.stage = .idle ∧
    ((t.result = some (BitVec.ofInt 32 s.cfg.errSentinel) ∧ t.errCause ≠ .noError ∧ t.cart.valid = false ∧
        t.cart.codeLen = 0 ∧ t.vm = s.resetCore.vm) ∨
      (∃ n, n ≤ s.cfg.codeCap ∧ t.result = some (BitVec.ofNat 32 n) ∧ t.errCause = .noError ∧
        t.cart.valid = true ∧ t.cart.codeLen = n ∧ t.dec.codeOut.length = n)) ∧
    t.dec.idat.length ≤ s.cfg.idatCap ∧ t.dec.raw.length ≤ t.dec.rawCap ∧
    t.dec.pix.length ≤ 4 * t.dec.imgW * t.dec.imgH ∧ t.dec.payload.length ≤ 0x8001 ∧
    t.dec.codeOut.length ≤ s.cfg.codeCap ∧ t.dec.lengths.length ≤ 320 ∧
    (t.cart.valid = false → ∀ x, 0x4300 ≤ x → t.peek x = s.resetCore.peek x) ∧
    ((∃ a rest, s.loadAnswers = a :: rest ∧ a.trace = []) →
      ∀ x, 0x4300 ≤ x → (x < 0x5E00 ∨ 0x5F00 ≤ x) → t.peek x = s.resetCore.peek x)

/-! ## Rasterizer state -/

/-- R346: the clip rectangle as `set_clip` leaves it. -/
def Obligations.SetClipStores : Prop := ∀ (s : State) (x y w h : Operand), s.mem.wf = true →
  s.cfg.layout.ok = true →
  ∃ t, exec (.setClip x y w h) s = .next t ∧
    WritesOnly (fun a => a = s.cfg.layout.clipX0 ∨ a = s.cfg.layout.clipY0 ∨ a = s.cfg.layout.clipX1 ∨
      a = s.cfg.layout.clipY1) s.noResult t ∧
    (∀ x' y' w' h', x = some x' → y = some y' → w = some w' → h = some h' →
      (t.clipX0.toNat : Int) = max 0 (min 128 x'.toInt) ∧ (t.clipY0.toNat : Int) = max 0 (min 128 y'.toInt) ∧
      (t.clipX1.toNat : Int) = max 0 (min 128 (x'.toInt + w'.toInt)) ∧
      (t.clipY1.toNat : Int) = max 0 (min 128 (y'.toInt + h'.toInt))) ∧
    (x = none ∨ y = none ∨ w = none ∨ h = none →
      t.clipX0 = 0 ∧ t.clipY0 = 0 ∧ t.clipX1 = 128 ∧ t.clipY1 = 128)

/-- R347, R351: the camera and the fill pattern as their commands leave them. -/
def Obligations.SetCameraFillStore : Prop := ∀ (s : State) (x y : Operand), s.mem.wf = true →
  s.cfg.layout.ok = true →
  (∃ t, exec (.setCamera x y) s = .next t ∧
    WritesOnly (fun a => (s.cfg.layout.cameraX ≤ a ∧ a < s.cfg.layout.cameraX + 2) ∨
      (s.cfg.layout.cameraY ≤ a ∧ a < s.cfg.layout.cameraY + 2)) s.noResult t ∧
    (∀ w, x = some w → t.cameraX = (w.extractLsb' 0 16).toInt) ∧
    (x = none → t.cameraX = 0) ∧
    (∀ w, y = some w → t.cameraY = (w.extractLsb' 0 16).toInt) ∧
    (y = none → t.cameraY = 0)) ∧
  (∃ t, exec (.setFillPattern x y) s = .next t ∧
    WritesOnly (fun a => (s.cfg.layout.fillp ≤ a ∧ a < s.cfg.layout.fillp + 2) ∨ a = s.cfg.layout.fillpTrans)
      s.noResult t ∧
    (∀ w, x = some w → t.fillp = w.extractLsb' 0 16) ∧ (x = none → t.fillp = 0) ∧
    ((∃ w, y = some w ∧ w ≠ 0) → t.fillpTrans = 1) ∧ ((y = none ∨ y = some 0) → t.fillpTrans = 0))

/-- R348, R352: the pen and the text cursor as their commands leave them. -/
def Obligations.SetColorCursorStore : Prop := ∀ (s : State) (x y c : Operand), s.mem.wf = true →
  s.cfg.layout.ok = true →
  (∃ t, exec (.setColor c) s = .next t ∧ WritesOnly (fun a => a = s.cfg.layout.pen) s.noResult t ∧
    (∀ w, c = some w → t.pen = w.extractLsb' 0 8) ∧ (c = none → t.pen = s.cfg.defaultPen)) ∧
  (∃ t, exec (.setCursor x y c) s = .next t ∧
    WritesOnly (fun a => a = s.cfg.layout.cursorX ∨ a = s.cfg.layout.cursorY ∨
      (c.isSome ∧ a = s.cfg.layout.pen)) s.noResult t ∧
    (∀ w, x = some w → t.cursorX = w.extractLsb' 0 8) ∧ (x = none → t.cursorX = 0) ∧
    (∀ w, y = some w → t.cursorY = w.extractLsb' 0 8) ∧ (y = none → t.cursorY = 0) ∧
    (∀ w, c = some w → t.pen = w.extractLsb' 0 8))

/-- R349: `set_palette`. With both colours it replaces bits 3:0 of one draw-palette entry, keeping bit 4 and
clearing bits 7:5, or one screen-palette entry; with neither it restores both palettes; otherwise nothing. -/
def Obligations.SetPaletteStores : Prop := ∀ (s : State) (c0 c1 p : Operand), s.mem.wf = true →
  s.cfg.layout.ok = true →
  ∃ t, exec (.setPalette c0 c1 p) s = .next t ∧
    WritesOnly (fun a => (s.cfg.layout.drawPal ≤ a ∧ a < s.cfg.layout.drawPal + 16) ∨
      (s.cfg.layout.screenPal ≤ a ∧ a < s.cfg.layout.screenPal + 16)) s.noResult t ∧
    (∀ a b, c0 = some a → c1 = some b → (p = none ∨ p = some 0) → ∀ k : BitVec 4,
      t.drawPal k = (if k = a.extractLsb' 0 4 then (s.drawPal k &&& 0x10) ||| (b.extractLsb' 0 4).setWidth 8
        else s.drawPal k) ∧ t.screenPal k = s.screenPal k) ∧
    (∀ a b, c0 = some a → c1 = some b → p = some 1 → ∀ k : BitVec 4,
      t.screenPal k = (if k = a.extractLsb' 0 4 then (b.extractLsb' 0 4).setWidth 8 else s.screenPal k) ∧
      t.drawPal k = s.drawPal k) ∧
    (∀ a b q, c0 = some a → c1 = some b → p = some q → q ≠ 0 → q ≠ 1 → t.mem = s.mem) ∧
    (c0 = none → c1 = none → ∀ k : BitVec 4,
      t.drawPal k = (if k = 0 then 0x10 else k.setWidth 8) ∧ t.screenPal k = k.setWidth 8) ∧
    (c0.isSome ≠ c1.isSome → t.mem = s.mem)

/-- R350: `set_transparent` sets or clears bit 4 of one draw-palette entry and alters no other bit; without a
colour it makes colour 0 transparent and no other. -/
def Obligations.SetTransparentStores : Prop := ∀ (s : State) (c t' : Operand), s.mem.wf = true →
  s.cfg.layout.ok = true →
  ∃ t, exec (.setTransparent c t') s = .next t ∧
    WritesOnly (fun a => s.cfg.layout.drawPal ≤ a ∧ a < s.cfg.layout.drawPal + 16) s.noResult t ∧
    (∀ a, c = some a → t' ≠ some 0 → ∀ k : BitVec 4,
      t.drawPal k = if k = a.extractLsb' 0 4 then s.drawPal k ||| 0x10 else s.drawPal k) ∧
    (∀ a, c = some a → t' = some 0 → ∀ k : BitVec 4,
      t.drawPal k = if k = a.extractLsb' 0 4 then s.drawPal k &&& 0xEF else s.drawPal k) ∧
    (c = none → ∀ k : BitVec 4, t.drawPal k = if k = 0 then s.drawPal k ||| 0x10 else s.drawPal k &&& 0xEF)

/-! ## The pixel-write path and the primitives -/

/-- R332 to R336: the nibble one `pixel_write` leaves at its pixel: the fill pattern's choice between the
pen's nibbles, the draw palette, then the bitmask; the old one when the pixel is outside the clip rectangle
or is a transparent secondary one. -/
def Obligations.PixelWriteValue : Prop := ∀ (s : State) (x y : Int), s.mem.wf = true →
  onSheet x y = true →
  let bit := s.fillp.getLsbD (15 - ((x % 4).toNat + 4 * (y % 4).toNat))
  let col : BitVec 4 := if bit then s.pen.extractLsb' 4 4 else s.pen.extractLsb' 0 4
  let m : BitVec 4 := (s.drawPal col).extractLsb' 0 4
  let old := s.pget screenBase x y
  ((¬ ((s.clipX0.toNat : Int) ≤ x ∧ x < s.clipX1.toNat ∧ (s.clipY0.toNat : Int) ≤ y ∧ y < s.clipY1.toNat) ∨
      (bit = true ∧ s.fillpTrans.getLsbD 0 = true)) → (s.plot x y).pget screenBase x y = old) ∧
  ((s.clipX0.toNat : Int) ≤ x ∧ x < s.clipX1.toNat ∧ (s.clipY0.toNat : Int) ≤ y ∧ y < s.clipY1.toNat →
    (bit = false ∨ s.fillpTrans.getLsbD 0 = false) →
    (s.bitmask = 0 → (s.plot x y).pget screenBase x y = m) ∧
    (s.bitmask ≠ 0 → (s.plot x y).pget screenBase x y =
      (old &&& ~~~(s.bitmask.extractLsb' 0 4)) |||
        (m &&& s.bitmask.extractLsb' 0 4 &&& s.bitmask.extractLsb' 4 4)))

/-- R337 (c), (d): what a pen-based primitive leaves is determined by the set of pixels it writes, not by
their order or multiplicity. -/
def Obligations.PlotOrderIrrelevant : Prop := ∀ (s : State) (p q : List (Int × Int)), s.mem.wf = true →
  s.cfg.layout.ok = true → (∀ z, z ∈ p ↔ z ∈ q) → s.plotAll p = s.plotAll q

/-- R339, R380, R410: every command that draws through the pixel-write path completes; it changes no screen
pixel outside the clip rectangle, and outside the screen no byte but the draw-state bytes named for it. -/
def Obligations.ClipInvariant : Prop := ∀ (i : Instr) (s : State), i.draws = true → s.mem.wf = true →
  s.cfg.layout.ok = true → i.lacksRequired = false →
  ∃ t, exec i s = .next t ∧
    WritesOnly (fun a => inScreen a ∨ drawStateByte s.cfg.layout i a) s.noResult t ∧
    ∀ x y, onSheet x y = true →
      ¬ ((s.clipX0.toNat : Int) ≤ x ∧ x < s.clipX1.toNat ∧ (s.clipY0.toNat : Int) ≤ y ∧ y < s.clipY1.toNat) →
      t.pget screenBase x y = s.pget screenBase x y

/-- R360: `clear` fills the framebuffer with its colour in both nibbles, returns the text cursor to (0, 0),
and changes nothing else. -/
def Obligations.ClearFills : Prop := ∀ (s : State) (c : Operand), s.mem.wf = true → s.cfg.layout.ok = true →
  ∃ t, exec (.clear c) s = .next t ∧
    WritesOnly (fun a => inScreen a ∨ a = s.cfg.layout.cursorX ∨ a = s.cfg.layout.cursorY) s.noResult t ∧
    (∀ a, inScreen a → (∀ w, c = some w → t.peek a = w.extractLsb' 0 4 ++ w.extractLsb' 0 4) ∧
      (c = none → t.peek a = 0)) ∧
    t.cursorX = 0 ∧ t.cursorY = 0

/-- R362, R363, R338: `set_pixel` stores a supplied colour in the pen and writes one pixel; `get_pixel`
delivers the stored nibble of a pixel on screen and inside the clip rectangle, else 0. -/
def Obligations.PixelCommands : Prop := ∀ (s : State) (x y : Word) (c : Operand), s.mem.wf = true →
  s.cfg.layout.ok = true →
  (∃ t, exec (.setPixel (some x) (some y) c) s = .next t ∧
    DrawsShape s c (fun X Y => X = x.toInt - s.cameraX ∧ Y = y.toInt - s.cameraY) t ∧ PenAfter s c t) ∧
  (let X := x.toInt - s.cameraX
   let Y := y.toInt - s.cameraY
   let visible := 0 ≤ X ∧ X < 128 ∧ 0 ≤ Y ∧ Y < 128 ∧ (s.clipX0.toNat : Int) ≤ X ∧ X < s.clipX1.toNat ∧
     (s.clipY0.toNat : Int) ≤ Y ∧ Y < s.clipY1.toNat
   (visible → exec (.getPixel (some x) (some y)) s =
     .next { s with result := some ((s.pget screenBase X Y).setWidth 32) }) ∧
   (¬ visible → exec (.getPixel (some x) (some y)) s = .next { s with result := some 0 }))

/-- R364: a pixel set and read back is the colour's low nibble, where the screen point is visible, its
fill-pattern bit is 0, its draw-palette entry is the identity and no bitmask is active. -/
def Obligations.PixelPacking : Prop := ∀ (s : State) (x y c : Word), s.mem.wf = true →
  s.cfg.layout.ok = true → onSheet (x.toInt - s.cameraX) (y.toInt - s.cameraY) = true →
  s.inClip (x.toInt - s.cameraX) (y.toInt - s.cameraY) = true →
  fillBit s.fillp (x.toInt - s.cameraX) (y.toInt - s.cameraY) = false →
  (s.drawPal (c.extractLsb' 0 4)).extractLsb' 0 4 = c.extractLsb' 0 4 → s.bitmask = 0 →
  ∃ t, exec (.setPixel (some x) (some y) (some c)) s = .next t ∧
    exec (.getPixel (some x) (some y)) t = .next { t with result := some (c &&& 0xF) }

/-- R366, R367: `draw_line` plots max(|x1 - x0|, |y1 - y0|) + 1 pixels, the two end points among them, the
first first and the last last; an axis-aligned line is exactly the run between its ends. -/
def Obligations.LinePath : Prop := ∀ x0 y0 x1 y1 : Int,
  (linePoints x0 y0 x1 y1).length = max (x1 - x0).natAbs (y1 - y0).natAbs + 1 ∧
  (linePoints x0 y0 x1 y1).head? = some (x0, y0) ∧ (linePoints x0 y0 x1 y1).getLast? = some (x1, y1) ∧
  (y0 = y1 → ∀ p, p ∈ linePoints x0 y0 x1 y1 ↔ p.2 = y0 ∧ min x0 x1 ≤ p.1 ∧ p.1 ≤ max x0 x1) ∧
  (x0 = x1 → ∀ p, p ∈ linePoints x0 y0 x1 y1 ↔ p.1 = x0 ∧ min y0 y1 ≤ p.2 ∧ p.2 ≤ max y0 y1)

/-- R365: `line` draws from its first point to its second, or from the line-continuation point to its first
when the second is not wholly supplied, records the end point in world coordinates, and leaves a supplied colour in
the pen. -/
def Obligations.LineDraws : Prop := ∀ (s : State) (x0 y0 : Word) (x1 y1 c : Operand), s.mem.wf = true →
  s.cfg.layout.ok = true →
  ∃ t, exec (.line (some x0) (some y0) x1 y1 c) s = .next t ∧ PenAfter s c t ∧
    (∀ a b, x1 = some a → y1 = some b →
      DrawsShape s c (fun x y => (x, y) ∈ linePoints (x0.toInt - s.cameraX) (y0.toInt - s.cameraY)
        (a.toInt - s.cameraX) (b.toInt - s.cameraY)) t ∧
      t.lineX = (BitVec.ofInt 16 a.toInt).toInt ∧ t.lineY = (BitVec.ofInt 16 b.toInt).toInt) ∧
    (x1 = none ∨ y1 = none →
      DrawsShape s c (fun x y => (x, y) ∈ linePoints (s.lineX - s.cameraX) (s.lineY - s.cameraY)
        (x0.toInt - s.cameraX) (y0.toInt - s.cameraY)) t ∧
      t.lineX = (BitVec.ofInt 16 x0.toInt).toInt ∧ t.lineY = (BitVec.ofInt 16 y0.toInt).toInt)

/-- R370, R371: `rect` draws the border and `rect_fill` the whole of the rectangle with the two given corners,
in screen coordinates, both corners inclusive; a supplied colour stays in the pen. -/
def Obligations.RectanglesDraw : Prop := ∀ (s : State) (x0 y0 x1 y1 : Word) (c : Operand), s.mem.wf = true →
  s.cfg.layout.ok = true →
  let xa := min x0.toInt x1.toInt - s.cameraX
  let xb := max x0.toInt x1.toInt - s.cameraX
  let ya := min y0.toInt y1.toInt - s.cameraY
  let yb := max y0.toInt y1.toInt - s.cameraY
  (∃ t, exec (.rect (some x0) (some y0) (some x1) (some y1) c) s = .next t ∧ PenAfter s c t ∧
    DrawsShape s c (fun x y => (xa ≤ x ∧ x ≤ xb ∧ (y = ya ∨ y = yb)) ∨ (ya ≤ y ∧ y ≤ yb ∧ (x = xa ∨ x = xb))) t) ∧
  (∃ t, exec (.rectFill (some x0) (some y0) (some x1) (some y1) c) s = .next t ∧ PenAfter s c t ∧
    DrawsShape s c (fun x y => xa ≤ x ∧ x ≤ xb ∧ ya ≤ y ∧ y ≤ yb) t)

/-- R373 to R375: `circle` draws the eight reflections of the midpoint steps and `circle_fill` their spans,
about the centre in screen coordinates; the default radius is 4 and a negative one draws nothing; a supplied
colour stays in the pen. The steps' loop ends by its own test: a larger bound on its iterations changes nothing
(log entry 12). -/
def Obligations.CirclesDraw : Prop := ∀ (s : State) (x y : Word) (r c : Operand), s.mem.wf = true →
  s.cfg.layout.ok = true →
  let X := x.toInt - s.cameraX
  let Y := y.toInt - s.cameraY
  let R : Int := match r with | some w => w.toInt | none => 4
  (∃ t, exec (.circle (some x) (some y) r c) s = .next t ∧ PenAfter s c t ∧
    DrawsShape s c (fun x y => 0 ≤ R ∧ ∃ q ∈ circleSteps R,
      (((x - X).natAbs : Int) = q.1 ∧ ((y - Y).natAbs : Int) = q.2) ∨
      (((x - X).natAbs : Int) = q.2 ∧ ((y - Y).natAbs : Int) = q.1)) t) ∧
  (∃ t, exec (.circleFill (some x) (some y) r c) s = .next t ∧ PenAfter s c t ∧
    DrawsShape s c (fun x y => 0 ≤ R ∧ ∃ q ∈ circleSteps R,
      (((x - X).natAbs : Int) ≤ q.1 ∧ ((y - Y).natAbs : Int) = q.2) ∨
      (((x - X).natAbs : Int) ≤ q.2 ∧ ((y - Y).natAbs : Int) = q.1)) t) ∧
  ∀ n, R.toNat + 1 ≤ n → circleLoop n 0 R (1 - R) = circleSteps R

/-- R378, R379: `ellipse` draws the two ends of every row triple and `ellipse_fill` the span between them; a
supplied colour stays in the pen. The rows' loops end by their own tests: larger bounds on their iterations change
nothing (log entry 12). -/
def Obligations.EllipsesDraw : Prop := ∀ (s : State) (x0 y0 x1 y1 : Word) (c : Operand), s.mem.wf = true →
  s.cfg.layout.ok = true →
  let rows := ellipseRows (x0.toInt - s.cameraX) (y0.toInt - s.cameraY) (x1.toInt - s.cameraX)
    (y1.toInt - s.cameraY)
  (∃ t, exec (.ellipse (some x0) (some y0) (some x1) (some y1) c) s = .next t ∧ PenAfter s c t ∧
    DrawsShape s c (fun x y => ∃ q ∈ rows, y = q.2.2 ∧ (x = q.1 ∨ x = q.2.1)) t) ∧
  (∃ t, exec (.ellipseFill (some x0) (some y0) (some x1) (some y1) c) s = .next t ∧ PenAfter s c t ∧
    DrawsShape s c (fun x y => ∃ q ∈ rows, y = q.2.2 ∧ q.1 ≤ x ∧ x ≤ q.2.1) t) ∧
  ∀ n m, 2 * ((x1.toInt - x0.toInt).natAbs + (y1.toInt - y0.toInt).natAbs) + 8 ≤ n →
    (y1.toInt - y0.toInt).natAbs + 1 ≤ m →
    ellipseRowsIn n m (x0.toInt - s.cameraX) (y0.toInt - s.cameraY) (x1.toInt - s.cameraX)
      (y1.toInt - s.cameraY) = rows

/-! ## Blitters and text -/

/-- R394: `sprite` copies its block of sheet pixels, mirrored as a whole by a flip, to the rectangle at its
screen position; a number outside 0..255 or a size that is not positive draws nothing. -/
def Obligations.SpriteBlits : Prop := ∀ (s : State) (n x y : Word) (w h fx fy : Operand), s.mem.wf = true →
  s.cfg.layout.ok = true →
  let W : Int := 8 * (match w with | some v => v.toInt | none => 1)
  let H : Int := 8 * (match h with | some v => v.toInt | none => 1)
  let X := x.toInt - s.cameraX
  let Y := y.toInt - s.cameraY
  let flipX := ∃ v, fx = some v ∧ v ≠ 0
  let flipY := ∃ v, fy = some v ∧ v ≠ 0
  ∃ t, exec (.sprite (some n) (some x) (some y) w h fx fy) s = .next t ∧
    (n.toInt < 0 ∨ 255 < n.toInt ∨ W ≤ 0 ∨ H ≤ 0 → t = { s with result := none }) ∧
    (0 ≤ n.toInt → n.toInt ≤ 255 → 0 < W → 0 < H →
      ∃ u v : Int → Int → Int,
        (∀ X' Y', u X' Y' = n.toInt % 16 * 8 + (X' - X) ∧ ¬ flipX ∨
          u X' Y' = n.toInt % 16 * 8 + (W - 1 - (X' - X)) ∧ flipX) ∧
        (∀ X' Y', v X' Y' = n.toInt / 16 * 8 + (Y' - Y) ∧ ¬ flipY ∨
          v X' Y' = n.toInt / 16 * 8 + (H - 1 - (Y' - Y)) ∧ flipY) ∧
        BlitsShape s (fun X' Y' => X ≤ X' ∧ X' < X + W ∧ Y ≤ Y' ∧ Y' < Y + H) u v t)

/-- R397: `sprite_scaled` fills the destination rectangle of the absolute size at its screen position, each
pixel from the source position its 16.16 step reaches, mirrored when exactly one of the flip operand and a
negative size asks for it; an empty source or destination draws nothing. -/
def Obligations.ScaledSpriteBlits : Prop := ∀ (s : State) (sx sy sw sh dx dy : Word) (dw dh fx fy : Operand),
  s.mem.wf = true → s.cfg.layout.ok = true →
  let DW : Int := match dw with | some v => v.toInt | none => sw.toInt
  let DH : Int := match dh with | some v => v.toInt | none => sh.toInt
  let X := dx.toInt - s.cameraX
  let Y := dy.toInt - s.cameraY
  let su : Int → Int := fun X' => (X' - X) * (sw.toInt * 65536 / DW.natAbs) / 65536
  let sv : Int → Int := fun Y' => (Y' - Y) * (sh.toInt * 65536 / DH.natAbs) / 65536
  let flipX := (∃ v, fx = some v ∧ v ≠ 0) ↔ ¬ DW < 0
  let flipY := (∃ v, fy = some v ∧ v ≠ 0) ↔ ¬ DH < 0
  ∃ t, exec (.spriteScaled (some sx) (some sy) (some sw) (some sh) (some dx) (some dy) dw dh fx fy) s = .next t ∧
    (sw.toInt ≤ 0 ∨ sh.toInt ≤ 0 ∨ DW = 0 ∨ DH = 0 → t = { s with result := none }) ∧
    (0 < sw.toInt → 0 < sh.toInt → DW ≠ 0 → DH ≠ 0 →
      ∃ u v : Int → Int → Int,
        (∀ X' Y', u X' Y' = sx.toInt + su X' ∧ ¬ flipX ∨
          u X' Y' = sx.toInt + (sw.toInt - 1 - su X') ∧ flipX) ∧
        (∀ X' Y', v X' Y' = sy.toInt + sv Y' ∧ ¬ flipY ∨
          v X' Y' = sy.toInt + (sh.toInt - 1 - sv Y') ∧ flipY) ∧
        BlitsShape s (fun X' Y' => X ≤ X' ∧ X' < X + DW.natAbs ∧ Y ≤ Y' ∧ Y' < Y + DH.natAbs) u v t)

/-- R391 to R393: the nibble one `blit_pixel` leaves: the old one when the sheet position is outside the
sheet, its colour is transparent or the pixel is outside the clip rectangle; else the mapped colour, through
the bitmask. -/
def Obligations.BlitPixelValue : Prop := ∀ (s : State) (x y u v : Int), s.mem.wf = true →
  onSheet x y = true →
  let c := s.pget gfxBase u v
  let m : BitVec 4 := (s.drawPal c).extractLsb' 0 4
  let old := s.pget screenBase x y
  (¬ (0 ≤ u ∧ u < 128 ∧ 0 ≤ v ∧ v < 128) ∨ (s.drawPal c).getLsbD 4 = true ∨
      ¬ ((s.clipX0.toNat : Int) ≤ x ∧ x < s.clipX1.toNat ∧ (s.clipY0.toNat : Int) ≤ y ∧ y < s.clipY1.toNat) →
    (s.blitPixel x y u v).pget screenBase x y = old) ∧
  (0 ≤ u ∧ u < 128 ∧ 0 ≤ v ∧ v < 128 → (s.drawPal c).getLsbD 4 = false →
    (s.clipX0.toNat : Int) ≤ x ∧ x < s.clipX1.toNat ∧ (s.clipY0.toNat : Int) ≤ y ∧ y < s.clipY1.toNat →
    (s.bitmask = 0 → (s.blitPixel x y u v).pget screenBase x y = m) ∧
    (s.bitmask ≠ 0 → (s.blitPixel x y u v).pget screenBase x y =
      (old &&& ~~~(s.bitmask.extractLsb' 0 4)) |||
        (m &&& s.bitmask.extractLsb' 0 4 &&& s.bitmask.extractLsb' 4 4)))

/-- R400, R402: a screen pixel after `tile_map`: blitted from the tile of the map cell it falls in, when that
cell exists, its tile is not 0 and passes the layer filter; else unchanged. -/
def Obligations.TileMapDraws : Prop := ∀ (s : State) (a b sx sy cw ch : Word) (layers : Operand),
  s.mem.wf = true → s.cfg.layout.ok = true →
  ∃ t, exec (.tileMap (some a) (some b) (some sx) (some sy) (some cw) (some ch) layers) s = .next t ∧
    ∀ x y, onSheet x y = true →
      let i := (x + s.cameraX - sx.toInt) / 8
      let j := (y + s.cameraY - sy.toInt) / 8
      let A := a.toInt + i
      let B := b.toInt + j
      let tile := s.peek (if B < 32 then 0x2000 + (B * 128 + A).toNat else 0x1000 + ((B - 32) * 128 + A).toNat)
      let common := s.peek (0x3000 + tile.toNat) &&& (match layers with | some w => w.extractLsb' 0 8 | none => 0)
      let filtered := ∃ w, layers = some w ∧ w.extractLsb' 0 8 ≠ (0 : Byte) ∧
        ((s.cfg.mapLayerAll = true ∧ common ≠ w.extractLsb' 0 8) ∨ (s.cfg.mapLayerAll = false ∧ common = 0))
      let shown := 0 ≤ i ∧ i < cw.toInt ∧ 0 ≤ j ∧ j < ch.toInt ∧ 0 ≤ A ∧ A ≤ 127 ∧ 0 ≤ B ∧ B ≤ 63 ∧
        tile ≠ 0 ∧ ¬ filtered
      (shown → t.pget screenBase x y =
        (s.blitPixel x y (tile.toNat % 16 * 8 + (x + s.cameraX - sx.toInt) % 8)
          (tile.toNat / 16 * 8 + (y + s.cameraY - sy.toInt) % 8)).pget screenBase x y) ∧
      (¬ shown → t.pget screenBase x y = s.pget screenBase x y)

/-- R408: `text` writes the set pixels of its glyphs, laid out from the given point or the cursor, and leaves
the cursor at the starting column, one line below its last line. -/
def Obligations.TextDraws : Prop := ∀ (s : State) (str : Bytes) (x y c : Operand), s.mem.wf = true →
  s.cfg.layout.ok = true →
  ∃ (t : State) (left ty : Int), exec (.text str x y c) s = .next t ∧
    (∀ a b, x = some a → y = some b → left = a.toInt ∧ ty = b.toInt) ∧
    (x = none ∨ y = none → left = s.cursorX.toNat ∧ ty = s.cursorY.toNat) ∧
    DrawsShape s c (fun X Y => (X + s.cameraX, Y + s.cameraY) ∈
      (textLayout s.cfg.font s.cfg.glyphH left str left ty).1) t ∧
    t.cursorX = BitVec.ofInt 8 left ∧
    t.cursorY = BitVec.ofInt 8 (ty + (s.cfg.glyphH + 1) * (str.count 0x0A + 1)) ∧ PenAfter s c t

/-! ## Synthesizer -/

/-- R430, R443, R422, R423: `sfx` with a sound effect 0..63 and a note 0..31 starts it on the explicit channel,
else the lowest-numbered idle one, else channel 0; that channel's playback registers and cached note are as
the rules say, its noise register and the other channels unchanged. -/
def Obligations.SfxStarts : Prop := ∀ (s : State) (n : Word) (channel offset : Operand) (i : Fin 64) (o : Fin 32),
  n.toInt = i.val → (offset = none ∧ o = 0 ∨ ∃ v, offset = some v ∧ v.toInt = o.val) →
  ∃ (t : State) (c : Fin 4), exec (.sfx (some n) channel offset) s = .next t ∧
    t = { s with channels := t.channels, result := none } ∧
    ((∃ v, channel = some v ∧ v.toInt = c.val) ∨
      ((channel = none ∨ ∃ v, channel = some v ∧ (v.toInt < 0 ∨ 3 < v.toInt)) ∧
        (((s.channels.get c).sfxIdx = none ∧ ∀ d, d < c → (s.channels.get d).sfxIdx ≠ none) ∨
          ((∀ d, (s.channels.get d).sfxIdx ≠ none) ∧ c = 0)))) ∧
    (∀ d, d ≠ c → t.channels.get d = s.channels.get d) ∧
    (let w := s.peek16 (0x3200 + 68 * i.val + 2 * o.val)
     let freq := BitVec.ofNat 32 (s.cfg.noteFreq.getD (w.toNat % 64) 0)
     t.channels.get c =
      { sfxIdx := some i, noteIdx := o, tickCtr := 0, phase := 0
        samplesPerTick := BitVec.ofNat 32
          (s.cfg.sampleRate * max (s.peek (0x3200 + 68 * i.val + 65)).toNat 1 / 120)
        phaseInc := BitVec.ofNat 32 (freq.toNat * 65536 / s.cfg.sampleRate)
        freq := freq, wave := w.extractLsb' 6 3, vol := w.extractLsb' 9 3, effect := w.extractLsb' 12 3
        custom := w.getLsbD 15, lfsr := (s.channels.get c).lfsr })

/-- R430: `sfx` with -1 makes the explicit channel, or every channel, idle and keeps its other registers; with
a number outside -1..63, or a note outside 0..31, it does nothing. -/
def Obligations.SfxStopsOrIgnores : Prop := ∀ (s : State) (n : Word) (channel offset : Operand),
  (n.toInt = -1 → ∃ t, exec (.sfx (some n) channel offset) s = .next t ∧
    t = { s with channels := t.channels, result := none } ∧
    ∀ c : Fin 4,
      ((∃ v, channel = some v ∧ 0 ≤ v.toInt ∧ v.toInt ≤ 3 ∧ v.toInt ≠ c.val) →
        t.channels.get c = s.channels.get c) ∧
      (¬ (∃ v, channel = some v ∧ 0 ≤ v.toInt ∧ v.toInt ≤ 3 ∧ v.toInt ≠ c.val) →
        t.channels.get c = { s.channels.get c with sfxIdx := none })) ∧
  (n.toInt < -1 ∨ 63 < n.toInt → exec (.sfx (some n) channel offset) s = .next { s with result := none }) ∧
  (n.toInt ≠ -1 → (∃ v, offset = some v ∧ (v.toInt < 0 ∨ 31 < v.toInt)) →
    exec (.sfx (some n) channel offset) s = .next { s with result := none })

/-- R452, R455: `music` starts a pattern at tick 0, stops with -1, and otherwise does nothing; the master
volume is stored clamped to 0..255. -/
def Obligations.MusicAndVolume : Prop := ∀ (s : State) (n : Word),
  (∀ p : Fin 64, n.toInt = p.val → exec (.music (some n)) s =
    .next { s with mus := { pattern := some p, tick := 0, loop := false }, result := none }) ∧
  (n.toInt = -1 → exec (.music (some n)) s =
    .next { s with mus := { pattern := none, tick := 0, loop := false }, result := none }) ∧
  (n.toInt < -1 ∨ 63 < n.toInt → exec (.music (some n)) s = .next { s with result := none }) ∧
  (∃ t, exec (.setMasterVolume (some n)) s = .next t ∧
    t = { s with masterVol := t.masterVol, result := none } ∧
    (t.masterVol.toNat : Int) = max 0 (min 255 n.toInt))

/-- R440, R441 (d), (e), (f): a sample step changes the channels and the sample port only, on which it delivers one
sample behind those delivered before; idle channels are not touched, four idle channels give the sample 0, and every
sample lies in -32640..32639. That the port keeps the earlier samples is the model's (log entry 37). -/
def Obligations.SampleFrame : Prop := ∀ s : State,
  ∃ t, exec .sample s = .next t ∧ t = { s with channels := t.channels, sampleOut := t.sampleOut } ∧
    (∀ c, (s.channels.get c).sfxIdx = none → t.channels.get c = s.channels.get c) ∧
    ∃ v, t.sampleOut = s.sampleOut ++ [v] ∧ ((∀ c, (s.channels.get c).sfxIdx = none) → v = 0) ∧ -32640 ≤ v.toInt ∧ v.toInt ≤ 32639

/-- R440, R443, R445, R447: a sample step, voice by voice. An idle channel is as before. One inside a note counts
its tick and sounds; one at the end of a note starts the next note, or after note 31 the loop start when the sound
effect loops, and sounds; else it goes idle and adds nothing. The sample is the sum of the terms, clipped and scaled
by the master volume; the reference noise register is clocked as R447 says. -/
def Obligations.SampleWithinNote : Prop :=
  (∀ s : State, ∃ (t : State) (term : Fin 4 → Int), exec .sample s = .next t ∧
    t = { s with channels := t.channels, sampleOut := t.sampleOut } ∧
    t.sampleOut = s.sampleOut ++ [BitVec.ofInt 16
      ((max (-32768) (min 32767 (term 0 + term 1 + term 2 + term 3)) * s.masterVol.toNat).tdiv 256)] ∧
    ∀ c : Fin 4,
      let p := s.channels.get c
      let q := t.channels.get c
      (p.sfxIdx = none → q = p ∧ term c = 0) ∧
      ∀ n, p.sfxIdx = some n →
        let ls := s.peek (0x3200 + 68 * n.val + 66)
        let le := s.peek (0x3200 + 68 * n.val + 67)
        (p.tickCtr.toNat + 1 < p.samplesPerTick.toNat →
          Sounds s.cfg { p with tickCtr := p.tickCtr + 1 } q (term c)) ∧
        (p.samplesPerTick.toNat ≤ p.tickCtr.toNat + 1 →
          (∀ k : Fin 32, k.val = p.noteIdx.val + 1 → Sounds s.cfg (s.startNote n k p) q (term c)) ∧
          (p.noteIdx = 31 → ∀ k : Fin 32, ls.toNat = k.val → ls.toNat < le.toNat →
            Sounds s.cfg (s.startNote n k p) q (term c)) ∧
          (p.noteIdx = 31 → (le.toNat ≤ ls.toNat ∨ 31 < ls.toNat) →
            q = { p with sfxIdx := none, tickCtr := 0, phase := 0 } ∧ term c = 0))) ∧
  ∀ (l : Half) (f : ParamFn) (n : Nat), lfsrClocks f 0 l = l ∧
    lfsrClocks f (n + 1) l = lfsrClocks f n (lfsrClock f l) ∧
    lfsrClock .reference l = (l >>> 1) |||
      ((BitVec.ofBool (l.getLsbD 0 ^^ l.getLsbD 2 ^^ l.getLsbD 3 ^^ l.getLsbD 5)).setWidth 16 <<< 15)

/-- R460: a sample is a function of the configuration, the channel registers, the master volume and the bytes
of the sound-effect region; states that agree on these give the same sample and the same registers. -/
def Obligations.AudioDeterminism : Prop := ∀ s s' : State,
  s.cfg = s'.cfg → s.channels = s'.channels → s.masterVol = s'.masterVol →
  (∀ a, 0x3200 ≤ a → a < 0x4300 → s.peek a = s'.peek a) →
  ∃ t t' v, exec .sample s = .next t ∧ exec .sample s' = .next t' ∧ t.sampleOut = s.sampleOut ++ [v] ∧
    t'.sampleOut = s'.sampleOut ++ [v] ∧ t.channels = t'.channels

/-! ## Decoder tokens -/

/-- R213, R214, R224, R225, R474: the four block headers. A stored block whose fields and bounds are in order
copies its bytes; the compressed ones install their tables. A stored block whose fields are cut short or
disagree, or whose bytes pass the input or the capacity, a dynamic header that cannot be read, and type 3 are
BAD_DEFLATE load errors, which record the cause, mark the cart invalid and end the load with the sentinel. A dynamic
header that is read has counts within R225's bounds, a complete code-length code, an end-of-block code and two codes
that R225 accepts. The model's are: where in_pos stands after a failure (log entry 33), what the other inflate
registers hold then (log entry 39), what lengths holds after a header beyond the code lengths it reads and how a
fixed one lays it out (log entry 38), and which entries symbol holds (log entry 42). -/
def Obligations.BlockHeaders : Prop := (∀ (s : State) (final : Bool), s.dec.stage = .blockHeader →
  (∀ len pos, getBits s.dec.stream ((s.dec.inPos + 7) / 8 * 8) 16 = some (len, (s.dec.inPos + 7) / 8 * 8 + 16) →
    getBits s.dec.stream ((s.dec.inPos + 7) / 8 * 8 + 16) 16 = some (65535 - len, pos) →
    pos + 8 * len ≤ 8 * s.dec.stream.length → s.dec.raw.length + len ≤ s.dec.rawCap →
    exec (.dfStored final) s = .next { s with dec := { s.dec with
      raw := s.dec.raw ++ (s.dec.stream.drop (pos / 8)).take len
      inPos := pos + 8 * len
      bfinal := final
      stage := if final then .inflateDone else .blockHeader } }) ∧
  (∀ p, p = (s.dec.inPos + 7) / 8 * 8 →
    (getBits s.dec.stream p 16 = none ∨ getBits s.dec.stream (p + 16) 16 = none ∨
      ∃ len nlen, getBits s.dec.stream p 16 = some (len, p + 16) ∧
        getBits s.dec.stream (p + 16) 16 = some (nlen, p + 32) ∧
        (nlen ≠ 65535 - len ∨ 8 * s.dec.stream.length < p + 32 + 8 * len ∨
          s.dec.rawCap < s.dec.raw.length + len)) →
    exec (.dfStored final) s = .next (s.raiseLoadError .badDeflate)) ∧
  (∀ e, readDynamic s.dec.stream s.dec.inPos = .error e →
    exec (.dfDynamic final) s = .next (s.raiseLoadError .badDeflate)) ∧
  (exec (.dfFixed final) s = .next { s with dec := { s.dec with
    stage := .blockTokens
    bfinal := final
    lencode := fixedLencode
    distcode := fixedDistcode
    lengths := fixedLitLengths ++ List.replicate 30 5 } }) ∧
  (∀ lens pos, readDynamic s.dec.stream s.dec.inPos = .ok (lens, pos) →
    exec (.dfDynamic final) s = .next { s with dec := { s.dec with
      stage := .blockTokens
      bfinal := final
      inPos := pos
      lencode := huffOf lens.1
      distcode := huffOf lens.2
      lengths := lens.1 ++ lens.2 } }) ∧
  (exec (.dfReserved final) s = .next { s with
    errCause := .badDeflate
    cart := { s.cart with valid := false, codeLen := 0 }
    result := some (BitVec.ofInt 32 s.cfg.errSentinel)
    dec := { s.dec with stage := .idle } })) ∧
  ∀ (b : Bytes) (pos : Nat) (lens : List Nat × List Nat) (pos' : Nat), readDynamic b pos = .ok (lens, pos') →
    (∃ hlit hdist hclen sent p, getBits b pos 5 = some (hlit, pos + 5) ∧
      getBits b (pos + 5) 5 = some (hdist, pos + 10) ∧ getBits b (pos + 10) 4 = some (hclen, pos + 14) ∧
      readTriples b (pos + 14) (hclen + 4) = .ok (sent, p) ∧ huffLeft (clLengths sent) = 0 ∧
      lens.1.length = 257 + hlit ∧ lens.2.length = 1 + hdist) ∧
    lens.1.length ≤ 286 ∧ lens.2.length ≤ 30 ∧ lens.1.getD 256 0 ≠ 0 ∧
    ∀ l, l = lens.1 ∨ l = lens.2 →
      0 ≤ huffLeft l ∧ (0 < huffLeft l → l.length = l.count 0 + l.count 1)

/-- R227, R228, R230: the tokens of a compressed block. A literal is appended, an end of block goes on to the
next header or ends the stream, a copy appends its length from its distance back byte by byte; a full output
or a distance before its start is BAD_DEFLATE, and then nothing is written. -/
def Obligations.BlockTokens : Prop := ∀ (s : State) (sym : Byte) (l le d de : Nat), s.dec.stage = .blockTokens →
  (s.dec.raw.length < s.dec.rawCap →
    exec (.dfLit sym) s = .next { s with dec := { s.dec with raw := s.dec.raw ++ [sym] } }) ∧
  (s.dec.rawCap ≤ s.dec.raw.length → exec (.dfLit sym) s = .next (s.raiseLoadError .badDeflate)) ∧
  (exec .dfEob s =
    .next { s with dec := { s.dec with stage := if s.dec.bfinal then .inflateDone else .blockHeader } }) ∧
  (wfDfLen l le d de = true → copyDist d de ≤ s.dec.raw.length →
    s.dec.raw.length + copyLength l le ≤ s.dec.rawCap →
    ∃ raw, exec (.dfLen l le d de) s = .next { s with dec := { s.dec with raw := raw } } ∧
      raw.length = s.dec.raw.length + copyLength l le ∧
      (∀ k, k < s.dec.raw.length → raw.getD k 0 = s.dec.raw.getD k 0) ∧
      (∀ k, s.dec.raw.length ≤ k → k < raw.length → raw.getD k 0 = raw.getD (k - copyDist d de) 0)) ∧
  (wfDfLen l le d de = true → (s.dec.raw.length < copyDist d de ∨
      s.dec.rawCap < s.dec.raw.length + copyLength l le) →
    exec (.dfLen l le d de) s = .next (s.raiseLoadError .badDeflate))

/-- R251 to R256: a filter byte reconstructs its scanline: every byte is the filtered one plus the predictor
of its three reconstructed neighbours, which count as 0 outside the image. The Paeth predictor is the nearest of
its three arguments to a + b - c, ties in the order a, b, c. -/
def Obligations.FiltersReconstruct : Prop := (∀ (s : State) (y : Nat) (i : Instr) (pred : Byte → Byte → Byte → Byte),
  s.dec.stage = .scanlines → s.dec.inPos + s.dec.stride ≤ s.dec.raw.length →
  s.dec.pix.length = y * s.dec.stride →
  ((i = .fltNone ∧ pred = fun _ _ _ => 0) ∨ (i = .fltSub ∧ pred = fun a _ _ => a) ∨
    (i = .fltUp ∧ pred = fun _ b _ => b) ∨
    (i = .fltAvg ∧ pred = fun a b _ => BitVec.ofNat 8 ((a.toNat + b.toNat) / 2)) ∨
    (i = .fltPaeth ∧ pred = paeth)) →
  ∃ pix, exec i s = .next { s with dec := { s.dec with pix := pix, inPos := s.dec.inPos + s.dec.stride } } ∧
    pix.length = (y + 1) * s.dec.stride ∧ (∀ k, k < y * s.dec.stride → pix.getD k 0 = s.dec.pix.getD k 0) ∧
    ∀ k, k < s.dec.stride →
      pix.getD (y * s.dec.stride + k) 0 = s.dec.raw.getD (s.dec.inPos + k) 0 +
        pred (if 4 ≤ k then pix.getD (y * s.dec.stride + k - 4) 0 else 0)
          (if 0 < y then pix.getD ((y - 1) * s.dec.stride + k) 0 else 0)
          (if 4 ≤ k ∧ 0 < y then pix.getD ((y - 1) * s.dec.stride + k - 4) 0 else 0)) ∧
  ∀ a b c : Byte,
    let p : Int := a.toNat + b.toNat - c.toNat
    let dist : Byte → Nat := fun v => (p - v.toNat).natAbs
    (dist a ≤ dist b ∧ dist a ≤ dist c → paeth a b c = a) ∧
    (¬ (dist a ≤ dist b ∧ dist a ≤ dist c) → dist b ≤ dist c → paeth a b c = b) ∧
    (¬ (dist a ≤ dist b ∧ dist a ≤ dist c) → dist c < dist b → paeth a b c = c)

/-- R276, R278, R280: the tokens of the new format. A literal emits and promotes its table entry; a reference
appends from its offset back, cut at the limit, or is BAD_CODE_STREAM when the offset reaches before the
output; a raw run emits its non-zero bytes up to the terminating zero. -/
def Obligations.NewFormatTokens : Prop := ∀ s : State, s.dec.stage = .newFormat →
  (∀ index : Byte, s.dec.codeOut.length < s.dec.limit →
    exec (.nfLit index) s = .next { s with dec := { s.dec with
      mtf := s.dec.mtf.getD index.toNat 0 :: s.dec.mtf.eraseIdx index.toNat
      codeOut := s.dec.codeOut ++ [s.dec.mtf.getD index.toNat 0] } }) ∧
  (∀ (i : Instr) (offset length : Nat),
    ((∃ f, i = .nfRef15 f length ∧ offset = f.toNat + 1) ∨ (∃ f, i = .nfRef10 f length ∧ offset = f.toNat + 1) ∨
      (∃ f, i = .nfRef5 f length ∧ offset = f.toNat + 1)) →
    (s.dec.codeOut.length < offset → exec i s = .next (s.raiseLoadError .badCodeStream)) ∧
    (offset ≤ s.dec.codeOut.length → s.dec.codeOut.length ≤ s.dec.limit →
      ∃ out, exec i s = .next { s with dec := { s.dec with codeOut := out } } ∧
        out.length = min (s.dec.codeOut.length + length) s.dec.limit ∧
        (∀ k, k < s.dec.codeOut.length → out.getD k 0 = s.dec.codeOut.getD k 0) ∧
        (∀ k, s.dec.codeOut.length ≤ k → k < out.length → out.getD k 0 = out.getD (k - offset) 0))) ∧
  (∀ bs : Bytes, (∀ b ∈ bs, b ≠ 0) → s.dec.codeOut.length + bs.length < s.dec.limit →
    (∀ k, k < bs.length → getBits s.codeStream (s.dec.inPos + 8 * k) 8 =
      some ((bs.getD k 0).toNat, s.dec.inPos + 8 * k + 8)) →
    getBits s.codeStream (s.dec.inPos + 8 * bs.length) 8 = some (0, s.dec.inPos + 8 * bs.length + 8) →
    exec .nfRaw s = .next { s with dec := { s.dec with
      codeOut := s.dec.codeOut ++ bs, inPos := s.dec.inPos + 8 * bs.length + 8 } })

/-- R291 to R293, R300, R50: the legacy codes and the raw script, whose bytes in_pos counts (that the zero behind
them is not counted is the model's, log entry 35). -/
def Obligations.LegacyAndRawTokens : Prop := ∀ s : State,
  (s.dec.stage = .legacy → s.dec.codeOut.length < s.dec.limit → ∀ b1 : Byte,
    exec (.lgEsc b1) s = .next { s with dec := { s.dec with codeOut := s.dec.codeOut ++ [b1] } }) ∧
  (s.dec.stage = .legacy → s.dec.codeOut.length < s.dec.limit → ∀ b0 : Byte, 1 ≤ b0.toNat → b0.toNat ≤ 0x3B →
    ∃ sym, exec (.lgSym b0) s = .next { s with dec := { s.dec with codeOut := s.dec.codeOut ++ [sym] } } ∧
      (s.cfg.legacyAlphabet = .reference → sym = legacyAlphabet.getD (b0.toNat - 1) 0)) ∧
  (s.dec.stage = .legacy → s.cfg.legacyRef = .reference → ∀ b0 b1 : Byte, 0x3C ≤ b0.toNat →
    let offset := (b0.toNat - 0x3C) * 16 + b1.toNat % 16
    let length := b1.toNat / 16 + 2
    (offset = 0 ∨ s.dec.codeOut.length < offset →
      exec (.lgRef b0 b1) s = .next (s.raiseLoadError .badCodeStream)) ∧
    (0 < offset → offset ≤ s.dec.codeOut.length → s.dec.codeOut.length ≤ s.dec.limit →
      ∃ out, exec (.lgRef b0 b1) s = .next { s with dec := { s.dec with codeOut := out } } ∧
        out.length = min (s.dec.codeOut.length + length) s.dec.limit ∧
        (∀ k, k < s.dec.codeOut.length → out.getD k 0 = s.dec.codeOut.getD k 0) ∧
        (∀ k, s.dec.codeOut.length ≤ k → k < out.length → out.getD k 0 = out.getD (k - offset) 0))) ∧
  (s.dec.stage = .rawScript →
    ∃ out, exec .rawScript s = .next { s with dec := { s.dec with
        codeOut := out, inPos := s.dec.inPos + out.length, stage := .scriptDone } } ∧
      out <+: s.dec.script ∧ (∀ b ∈ out, b ≠ 0) ∧ out.length ≤ s.cfg.codeCap ∧
      (out.length = s.cfg.codeCap ∨ out = s.dec.script ∨ s.dec.script[out.length]? = some 0))

/-! ## Encoding -/

/-- R100, R101: a command encoded and decoded again is the command, with every operand at every value, and
every operand unsupplied. -/
def Obligations.CommandRoundTrip : Prop := ∀ (i : Instr) (op : Nat), i.opcode = some op →
  decodeCommand (encodeCommand op i) = .ok i

/-- R131 to R134: a new-format token's bits, wherever they stand in a stream, decode to the token, and the
reader stands behind them. -/
def Obligations.NewFormatRoundTrip : Prop := ∀ (i : Instr) (b : Bytes) (pos : Nat) (bits : List Bool),
  ((∃ x, i = .nfLit x) ∨ (∃ f n, i = .nfRef15 f n) ∨ (∃ f n, i = .nfRef10 f n) ∨ (∃ f n, i = .nfRef5 f n) ∨
    i = .nfRaw) → i.wf = true → tokenBits fixedLencode fixedDistcode i = some bits → carries b pos bits = true →
  decodeNewFormat b pos = .ok (i, pos + bits.length)

/-- R117, R120 to R122: a token of a fixed-Huffman block, wherever its bits stand in a stream, decodes to the
token, and the reader stands behind them. -/
def Obligations.FixedBlockRoundTrip : Prop := ∀ (i : Instr) (b : Bytes) (pos : Nat) (bits : List Bool),
  ((∃ x, i = .dfLit x) ∨ i = .dfEob ∨ (∃ l le d de, i = .dfLen l le d de)) → i.wf = true →
  tokenBits fixedLencode fixedDistcode i = some bits → carries b pos bits = true →
  decodeBlockToken fixedLencode fixedDistcode b pos = .ok (i, pos + bits.length)

/-- R112, R124, R135: block headers, filter bytes and legacy codes decode to what they encode. -/
def Obligations.ByteTokenRoundTrip : Prop := ∀ (b : Bytes) (pos : Nat),
  (∀ (i : Instr) (bits : List Bool),
    ((∃ f, i = .dfStored f) ∨ (∃ f, i = .dfFixed f) ∨ (∃ f, i = .dfDynamic f) ∨ (∃ f, i = .dfReserved f)) →
    tokenBits fixedLencode fixedDistcode i = some bits → carries b pos bits = true →
    decodeBlockHeader b pos = .ok (i, pos + 3)) ∧
  (∀ i : Instr, (i = .fltNone ∨ i = .fltSub ∨ i = .fltUp ∨ i = .fltAvg ∨ i = .fltPaeth) →
    ∃ ft, decodeFilter ft = .ok i ∧ tokenBits fixedLencode fixedDistcode i = some (fieldBits 8 ft)) ∧
  (∀ (i : Instr) (bits : List Bool),
    ((∃ x, i = .lgEsc x) ∨ (∃ x, i = .lgSym x) ∨ (∃ x y, i = .lgRef x y)) → i.wf = true →
    tokenBits fixedLencode fixedDistcode i = some bits → carries b (8 * pos) bits = true →
    decodeLegacy b pos = .ok (i, pos + bits.length / 8))

/-- R100, R101: words written out from the command table decode to their commands. -/
def Obligations.HeaderWordsDecode : Prop :=
  decodeCommand ⟨[0x00010000, 0x5F25], .empty⟩ = .ok (.read8 (some 0x5F25)) ∧
  decodeCommand ⟨[0x00030021, 0xFFFFFFFE, 5], .empty⟩ = .ok (.setCamera (some 0xFFFFFFFE) (some 5)) ∧
  decodeCommand ⟨[0x00130033, 10, 10, 1, 2, 8], .empty⟩ =
    .ok (.line (some 10) (some 10) none none (some 8)) ∧
  decodeCommand ⟨[0x00030050, 0xFFFFFFFF, 2, 0], .empty⟩ = .ok (.sfx (some 0xFFFFFFFF) (some 2) none) ∧
  decodeCommand ⟨[0x00000017], .empty⟩ = .ok .step ∧
  decodeCommand ⟨[0x00010031, 3, 0, 9], .empty⟩ = .ok (.setPixel (some 3) none none)

/-! ## The machine's step -/

/-- R90, R100: with no decoder stage running, a step takes the oldest request off the ports and executes the
instruction it decodes to. -/
def Obligations.StepRunsCommand : Prop := ∀ (s : State) (r : Request) (rest : List Request) (i : Instr),
  s.dec.stage = .idle → s.port = r :: rest → decodeCommand r = .ok i →
  step s = exec i { s with port := rest }

/-- R50: while a decoder stage runs, a step executes the token fetched at `in_pos`, with `in_pos` behind the
token's bits. -/
def Obligations.StepRunsToken : Prop := ∀ (s : State) (i : Instr) (pos : Nat),
  s.dec.stage ≠ .idle → fetch s = .token i pos →
  step s = exec i { s with dec := { s.dec with inPos := pos } }

/-- R156: a reserved encoding (an opcode not in the table, a non-zero bit among bits 15:8 of the header, a
presence bit beyond the opcode's slots) is ignored, with result 0. That the whole request is taken off the ports,
which are a list of requests, is the model's (log entries 10 and 3). -/
def Obligations.ReservedEncodingIgnored : Prop := ∀ (s : State) (h : Word) (ops : List Word) (d : DataIn)
    (rest : List Request), s.dec.stage = .idle → s.port = ⟨h :: ops, d⟩ :: rest →
  (h.extractLsb' 8 8 ≠ (0 : Byte) ∨ opRow (h.toNat % 256) = none ∨
    ∃ row, opRow (h.toNat % 256) = some row ∧ 2 ^ row.slots ≤ h.toNat / 65536) →
  step s = .next { s with port := rest, result := some 0 }

/-- R70, R10: every step keeps the memory in canonical form (32768 bytes, no address beyond) and changes no
parameter of the configuration. The canonical form is the model's (log entry 5). -/
def Obligations.StepKeepsMemory : Prop := ∀ s t : State, s.mem.wf = true → step s = .next t →
  t.mem.wf = true ∧ t.cfg = s.cfg

/-- R212, R271, R273, R276, R474: every step keeps the decoder's buffers within their capacities, the
move-to-front table a permutation, and the cart registers consistent. -/
def Obligations.StepKeepsSound : Prop := ∀ s t : State, s.cfg.ok = true → s.Sound → step s = .next t → t.Sound

/-- R528: every step on every sound state has a next state: no command and no stream stops the machine. -/
def Obligations.StepNeverStops : Prop := ∀ s : State, s.cfg.ok = true → s.Sound → ∃ t, step s = .next t
end

