-- ==== Sys2Proof/Laws/Memory.lean ====
section
/-! SUPPORT. The laws of the memory: what a read sees after a write, that every write keeps the canonical
form, and that equal contents are equal memories. -/

namespace Sys2Proof.Machine

theorem Memory.wfFrom_cons {lo k : Nat} {v : Byte} {m : Memory} :
    Memory.wfFrom lo ((k, v) :: m) = true ↔ lo ≤ k ∧ k < ramSize ∧ v ≠ 0 ∧ Memory.wfFrom (k + 1) m = true := by
  simp [Memory.wfFrom, and_assoc]

theorem Memory.wfFrom_mono {lo lo' : Nat} {m : Memory} (h : lo' ≤ lo) (hm : Memory.wfFrom lo m = true) :
    Memory.wfFrom lo' m = true := by
  cases m with
  | nil => rfl
  | cons c m =>
    obtain ⟨k, v⟩ := c
    rw [Memory.wfFrom_cons] at hm ⊢
    exact ⟨h.trans hm.1, hm.2⟩

/-- Below its first address a memory reads as zero. -/
theorem Memory.get_below {lo a : Nat} {m : Memory} (hm : Memory.wfFrom lo m = true) (h : a < lo) :
    m.get a = 0 := by
  induction m generalizing lo with
  | nil => rfl
  | cons c m ih =>
    obtain ⟨k, v⟩ := c
    rw [Memory.wfFrom_cons] at hm
    have hk : k ≠ a := by omega
    simp only [Memory.get, hk, if_false]
    exact ih hm.2.2.2 (by omega)

theorem get_consCell (a : Nat) (b : Byte) (m : Memory) (x : Nat) (h : m.get a = 0) :
    (consCell a b m).get x = if x = a then b else m.get x := by
  unfold consCell
  split
  · split
    · subst_vars; exact h
    · rfl
  · simp only [Memory.get, eq_comm]

theorem wfFrom_consCell {lo a : Nat} {b : Byte} {m : Memory} (hlo : lo ≤ a) (ha : a < ramSize)
    (hm : Memory.wfFrom (a + 1) m = true) : Memory.wfFrom lo (consCell a b m) = true := by
  unfold consCell
  split
  · exact Memory.wfFrom_mono (by omega) hm
  · exact Memory.wfFrom_cons.mpr ⟨hlo, ha, by assumption, hm⟩

theorem Memory.wfFrom_set {lo a : Nat} {b : Byte} {m : Memory} (hm : Memory.wfFrom lo m = true) (hlo : lo ≤ a)
    (ha : a < ramSize) : Memory.wfFrom lo (m.set a b) = true := by
  induction m generalizing lo with
  | nil => exact wfFrom_consCell hlo ha rfl
  | cons c m ih =>
    obtain ⟨k, v⟩ := c
    have hm' := Memory.wfFrom_cons.mp hm
    simp only [Memory.set]
    split
    · exact wfFrom_consCell hlo ha (Memory.wfFrom_cons.mpr ⟨by omega, hm'.2⟩)
    · split
      · subst_vars; exact wfFrom_consCell hlo ha hm'.2.2.2
      · exact Memory.wfFrom_cons.mpr ⟨hm'.1, hm'.2.1, hm'.2.2.1, ih hm'.2.2.2 (by omega)⟩

/-- A write keeps the canonical form. -/
theorem Memory.wf_set {m : Memory} (hm : m.wf = true) {a : Nat} (ha : a < ramSize) (b : Byte) :
    (m.set a b).wf = true := Memory.wfFrom_set hm (Nat.zero_le a) ha

theorem Memory.get_set_from {lo : Nat} {m : Memory} (hm : Memory.wfFrom lo m = true) (a : Nat) (b : Byte)
    (x : Nat) : (m.set a b).get x = if x = a then b else m.get x := by
  induction m generalizing lo with
  | nil => exact get_consCell a b [] x rfl
  | cons c m ih =>
    obtain ⟨k, v⟩ := c
    have hm' := Memory.wfFrom_cons.mp hm
    simp only [Memory.set]
    split
    · rename_i h
      refine get_consCell a b _ x ?_
      exact Memory.get_below (Memory.wfFrom_cons.mpr ⟨le_refl k, hm'.2⟩) h
    · split
      · rename_i h
        subst h
        rw [get_consCell a b m x (Memory.get_below hm'.2.2.2 (by omega))]
        simp only [Memory.get]
        split
        · rfl
        · rw [if_neg (by omega)]
      · simp only [Memory.get]
        rw [ih hm'.2.2.2]
        split
        · rw [if_neg (by omega)]
        · rfl

/-- A read after a write (20_memory.md R78, R79): the byte written, and every other byte as before. -/
theorem Memory.get_set {m : Memory} (hm : m.wf = true) (a : Nat) (b : Byte) (x : Nat) :
    (m.set a b).get x = if x = a then b else m.get x := Memory.get_set_from hm a b x

/-! ## Blocks -/

theorem get_append_right {m n : Memory} {x : Nat} (h : ∀ c ∈ m, c.1 ≠ x) :
    Memory.get (m ++ n) x = Memory.get n x := by
  induction m with
  | nil => rfl
  | cons c m ih =>
    obtain ⟨k, v⟩ := c
    simp only [List.cons_append, Memory.get]
    rw [if_neg (h (k, v) (by simp)), ih fun c hc => h c (by simp [hc])]

theorem get_append_left {m n : Memory} {x : Nat} (h : Memory.get n x = 0) :
    Memory.get (m ++ n) x = Memory.get m x := by
  induction m with
  | nil => exact h
  | cons c m ih =>
    obtain ⟨k, v⟩ := c
    simp only [List.cons_append, Memory.get, ih]

theorem get_filter (p : Nat → Bool) (m : Memory) (x : Nat) :
    Memory.get (m.filter fun c => p c.1) x = if p x then m.get x else 0 := by
  induction m with
  | nil => simp [Memory.get]
  | cons c m ih =>
    obtain ⟨k, v⟩ := c
    by_cases hk : p k = true
    · simp only [List.filter_cons, hk, if_true, Memory.get, ih]
      split
      · subst_vars; simp [hk]
      · rfl
    · rw [List.filter_cons_of_neg (by simpa using hk), ih]
      simp only [Memory.get]
      by_cases hx : k = x
      · subst hx; simp [hk]
      · simp [hx]

/-- Below its start a run of cells reads as zero. -/
theorem get_cellsFrom_below {a x : Nat} (bs : Bytes) (h : x < a) : Memory.get (cellsFrom a bs) x = 0 := by
  induction bs generalizing a with
  | nil => rfl
  | cons b bs ih =>
    simp only [cellsFrom, consCell]
    split
    · exact ih (by omega)
    · simp only [Memory.get]
      rw [if_neg (by omega), ih (by omega)]

theorem key_cellsFrom {a : Nat} {bs : Bytes} {c : Host.Cell} (h : c ∈ cellsFrom a bs) :
    a ≤ c.1 ∧ c.1 < a + bs.length := by
  induction bs generalizing a with
  | nil => simp [cellsFrom] at h
  | cons b bs ih =>
    simp only [cellsFrom, consCell] at h
    have hl : (b :: bs).length = bs.length + 1 := rfl
    split at h
    · have := ih h; omega
    · rcases List.mem_cons.mp h with h | h
      · subst h; simp
      · have := ih h; omega

theorem get_cellsFrom (a : Nat) (bs : Bytes) (x : Nat) :
    Memory.get (cellsFrom a bs) x = if a ≤ x then bs.getD (x - a) 0 else 0 := by
  induction bs generalizing a with
  | nil => simp [cellsFrom, Memory.get]
  | cons b bs ih =>
    have h0 : Memory.get (cellsFrom (a + 1) bs) a = 0 := get_cellsFrom_below bs (Nat.lt_succ_self a)
    simp only [cellsFrom]
    rw [get_consCell a b _ x h0, ih]
    by_cases hx : x = a
    · subst hx; simp
    · by_cases h : a ≤ x
      · have : x - a = (x - (a + 1)) + 1 := by omega
        simp [hx, h, show a + 1 ≤ x by omega, this]
      · simp [hx, h, show ¬ a + 1 ≤ x by omega]

/-- A read after a block write: the block's bytes, and every other byte as before. -/
theorem Memory.get_setBlock (m : Memory) (a : Nat) (bs : Bytes) (x : Nat) :
    (m.setBlock a bs).get x = if a ≤ x ∧ x < a + bs.length then bs.getD (x - a) 0 else m.get x := by
  unfold Memory.setBlock
  have hhi : Memory.get (m.filter fun c => a + bs.length ≤ c.1) x = if a + bs.length ≤ x then m.get x else 0 := by
    simpa using get_filter (fun k => decide (a + bs.length ≤ k)) m x
  have hlo : Memory.get (m.filter fun c => c.1 < a) x = if x < a then m.get x else 0 := by
    simpa using get_filter (fun k => decide (k < a)) m x
  by_cases h1 : a + bs.length ≤ x
  · rw [if_neg (by omega), get_append_right, hhi, if_pos h1]
    intro c hc
    rcases List.mem_append.mp hc with hc | hc
    · have := (List.mem_filter.mp hc).2; simp at this; omega
    · have := key_cellsFrom hc; omega
  · rw [get_append_left (by rw [hhi, if_neg h1])]
    by_cases h2 : a ≤ x
    · rw [if_pos (by omega), get_append_right, get_cellsFrom, if_pos h2]
      intro c hc
      have := (List.mem_filter.mp hc).2; simp at this; omega
    · rw [if_neg (by omega), get_append_left, hlo, if_pos (by omega)]
      rw [get_cellsFrom, if_neg h2]

theorem wfFrom_append {lo mid : Nat} {m n : Memory} (hm : Memory.wfFrom lo m = true) (hk : ∀ c ∈ m, c.1 < mid)
    (hlo : lo ≤ mid) (hn : Memory.wfFrom mid n = true) : Memory.wfFrom lo (m ++ n) = true := by
  induction m generalizing lo with
  | nil => exact Memory.wfFrom_mono hlo hn
  | cons c m ih =>
    obtain ⟨k, v⟩ := c
    have hm' := Memory.wfFrom_cons.mp hm
    have := hk (k, v) (by simp)
    exact Memory.wfFrom_cons.mpr
      ⟨hm'.1, hm'.2.1, hm'.2.2.1, ih hm'.2.2.2 (fun c hc => hk c (by simp [hc])) (by simpa using this)⟩

theorem wfFrom_filter {lo : Nat} (p : Host.Cell → Bool) {m : Memory} (hm : Memory.wfFrom lo m = true) :
    Memory.wfFrom lo (m.filter p) = true := by
  induction m generalizing lo with
  | nil => rfl
  | cons c m ih =>
    obtain ⟨k, v⟩ := c
    have hm' := Memory.wfFrom_cons.mp hm
    simp only [List.filter_cons]
    split
    · exact Memory.wfFrom_cons.mpr ⟨hm'.1, hm'.2.1, hm'.2.2.1, ih hm'.2.2.2⟩
    · exact Memory.wfFrom_mono (by omega) (ih hm'.2.2.2)

theorem wfFrom_filter_ge {lo a : Nat} {m : Memory} (hm : Memory.wfFrom lo m = true) :
    Memory.wfFrom a (m.filter fun c => a ≤ c.1) = true := by
  induction m generalizing lo with
  | nil => rfl
  | cons c m ih =>
    obtain ⟨k, v⟩ := c
    have hm' := Memory.wfFrom_cons.mp hm
    simp only [List.filter_cons]
    split
    · rename_i h
      refine Memory.wfFrom_cons.mpr ⟨by simpa using h, hm'.2.1, hm'.2.2.1, wfFrom_filter _ hm'.2.2.2⟩
    · exact ih hm'.2.2.2

theorem wfFrom_cellsFrom {a : Nat} {bs : Bytes} (h : a + bs.length ≤ ramSize) :
    Memory.wfFrom a (cellsFrom a bs) = true := by
  induction bs generalizing a with
  | nil => rfl
  | cons b bs ih =>
    have hl : (b :: bs).length = bs.length + 1 := rfl
    exact wfFrom_consCell (le_refl a) (by omega) (ih (by omega))

/-- A block write inside the memory keeps the canonical form. -/
theorem Memory.wf_setBlock {m : Memory} (hm : m.wf = true) {a : Nat} {bs : Bytes}
    (h : a + bs.length ≤ ramSize) : (m.setBlock a bs).wf = true := by
  refine wfFrom_append (mid := a + bs.length)
    (wfFrom_append (mid := a) (wfFrom_filter _ hm) ?_ (by omega) (wfFrom_cellsFrom h)) ?_ (by omega)
    (wfFrom_filter_ge hm)
  · intro c hc; simpa using (List.mem_filter.mp hc).2
  · intro c hc
    rcases List.mem_append.mp hc with hc | hc
    · have := (List.mem_filter.mp hc).2; simp at this; omega
    · exact (key_cellsFrom hc).2

/-- The save slots kept by a reset: what they read as, and the canonical form (R512, R513). -/
theorem Memory.wf_filter {m : Memory} (hm : m.wf = true) (p : Host.Cell → Bool) :
    Memory.wf (m.filter p) = true := wfFrom_filter p hm

/-- Beyond its end a canonical memory reads as zero. -/
theorem Memory.get_beyond {m : Memory} (hm : m.wf = true) {a : Nat} (h : ramSize ≤ a) : m.get a = 0 := by
  have : ∀ lo, Memory.wfFrom lo m = true → m.get a = 0 := by
    intro lo hm
    induction m generalizing lo with
    | nil => rfl
    | cons c m ih =>
      obtain ⟨k, v⟩ := c
      have hm' := Memory.wfFrom_cons.mp hm
      have hk : k ≠ a := by omega
      simp only [Memory.get, hk, if_false]
      exact ih (Memory.wfFrom_mono (Nat.zero_le _) hm'.2.2.2) _ hm'.2.2.2
  exact this 0 hm

theorem Memory.ext_from {lo : Nat} {m n : Memory} (hm : Memory.wfFrom lo m = true)
    (hn : Memory.wfFrom lo n = true) (h : ∀ x, m.get x = n.get x) : m = n := by
  induction m generalizing lo n with
  | nil =>
    cases n with
    | nil => rfl
    | cons c n =>
      obtain ⟨k, v⟩ := c
      have := h k
      simp [Memory.get] at this
      exact absurd this.symm (Memory.wfFrom_cons.mp hn).2.2.1
  | cons c m ih =>
    obtain ⟨k, v⟩ := c
    have hm' := Memory.wfFrom_cons.mp hm
    cases n with
    | nil =>
      have := h k
      simp [Memory.get] at this
      exact absurd this hm'.2.2.1
    | cons c' n =>
      obtain ⟨k', v'⟩ := c'
      have hn' := Memory.wfFrom_cons.mp hn
      have hkk : k = k' := by
        rcases lt_trichotomy k k' with hlt | heq | hgt
        · have h1 := h k
          rw [Memory.get_below (Memory.wfFrom_cons.mpr ⟨le_refl k', hn'.2⟩) hlt] at h1
          simp [Memory.get] at h1
          exact absurd h1 hm'.2.2.1
        · exact heq
        · have h1 := h k'
          rw [Memory.get_below (Memory.wfFrom_cons.mpr ⟨le_refl k, hm'.2⟩) hgt] at h1
          simp [Memory.get] at h1
          exact absurd h1.symm hn'.2.2.1
      subst hkk
      have hv : v = v' := by simpa [Memory.get] using h k
      subst hv
      congr 1
      refine ih hm'.2.2.2 hn'.2.2.2 fun x => ?_
      by_cases hx : k = x
      · subst hx
        rw [Memory.get_below hm'.2.2.2 (by omega), Memory.get_below hn'.2.2.2 (by omega)]
      · simpa [Memory.get, hx] using h x

/-- Canonical memories with the same contents are the same memory. -/
theorem Memory.ext {m n : Memory} (hm : m.wf = true) (hn : n.wf = true) (h : ∀ x, m.get x = n.get x) :
    m = n := Memory.ext_from hm hn h

end Sys2Proof.Machine
end

