-- ==== Sys2Proof/Laws/State.lean ====
section
/-! SUPPORT. One lemma for each field of the state under each record update of the model, so that no proof
unfolds an update. -/

namespace Sys2Proof.Machine

/-! `State.withMem` -/

@[simp] theorem State.withMem_cfg (s : State) (m : Memory) : (s.withMem m).cfg = s.cfg := rfl
@[simp] theorem State.withMem_mem (s : State) (m : Memory) : (s.withMem m).mem = m := rfl
@[simp] theorem State.withMem_channels (s : State) (m : Memory) : (s.withMem m).channels = s.channels := rfl
@[simp] theorem State.withMem_mus (s : State) (m : Memory) : (s.withMem m).mus = s.mus := rfl
@[simp] theorem State.withMem_masterVol (s : State) (m : Memory) : (s.withMem m).masterVol = s.masterVol := rfl
@[simp] theorem State.withMem_cart (s : State) (m : Memory) : (s.withMem m).cart = s.cart := rfl
@[simp] theorem State.withMem_errCause (s : State) (m : Memory) : (s.withMem m).errCause = s.errCause := rfl
@[simp] theorem State.withMem_vm (s : State) (m : Memory) : (s.withMem m).vm = s.vm := rfl
@[simp] theorem State.withMem_dec (s : State) (m : Memory) : (s.withMem m).dec = s.dec := rfl
@[simp] theorem State.withMem_port (s : State) (m : Memory) : (s.withMem m).port = s.port := rfl
@[simp] theorem State.withMem_result (s : State) (m : Memory) : (s.withMem m).result = s.result := rfl
@[simp] theorem State.withMem_sampleOut (s : State) (m : Memory) : (s.withMem m).sampleOut = s.sampleOut := rfl
@[simp] theorem State.withMem_loadAnswers (s : State) (m : Memory) : (s.withMem m).loadAnswers = s.loadAnswers := rfl
@[simp] theorem State.withMem_hookAnswers (s : State) (m : Memory) : (s.withMem m).hookAnswers = s.hookAnswers := rfl
@[simp] theorem State.withMem_engineCalls (s : State) (m : Memory) : (s.withMem m).engineCalls = s.engineCalls := rfl

/-! `State.withDec` -/

@[simp] theorem State.withDec_cfg (s : State) (d : Decoder) : (s.withDec d).cfg = s.cfg := rfl
@[simp] theorem State.withDec_mem (s : State) (d : Decoder) : (s.withDec d).mem = s.mem := rfl
@[simp] theorem State.withDec_channels (s : State) (d : Decoder) : (s.withDec d).channels = s.channels := rfl
@[simp] theorem State.withDec_mus (s : State) (d : Decoder) : (s.withDec d).mus = s.mus := rfl
@[simp] theorem State.withDec_masterVol (s : State) (d : Decoder) : (s.withDec d).masterVol = s.masterVol := rfl
@[simp] theorem State.withDec_cart (s : State) (d : Decoder) : (s.withDec d).cart = s.cart := rfl
@[simp] theorem State.withDec_errCause (s : State) (d : Decoder) : (s.withDec d).errCause = s.errCause := rfl
@[simp] theorem State.withDec_vm (s : State) (d : Decoder) : (s.withDec d).vm = s.vm := rfl
@[simp] theorem State.withDec_dec (s : State) (d : Decoder) : (s.withDec d).dec = d := rfl
@[simp] theorem State.withDec_port (s : State) (d : Decoder) : (s.withDec d).port = s.port := rfl
@[simp] theorem State.withDec_result (s : State) (d : Decoder) : (s.withDec d).result = s.result := rfl
@[simp] theorem State.withDec_sampleOut (s : State) (d : Decoder) : (s.withDec d).sampleOut = s.sampleOut := rfl
@[simp] theorem State.withDec_loadAnswers (s : State) (d : Decoder) : (s.withDec d).loadAnswers = s.loadAnswers := rfl
@[simp] theorem State.withDec_hookAnswers (s : State) (d : Decoder) : (s.withDec d).hookAnswers = s.hookAnswers := rfl
@[simp] theorem State.withDec_engineCalls (s : State) (d : Decoder) : (s.withDec d).engineCalls = s.engineCalls := rfl

/-! `State.withChannels` -/

@[simp] theorem State.withChannels_cfg (s : State) (cs : Channels) : (s.withChannels cs).cfg = s.cfg := rfl
@[simp] theorem State.withChannels_mem (s : State) (cs : Channels) : (s.withChannels cs).mem = s.mem := rfl
@[simp] theorem State.withChannels_channels (s : State) (cs : Channels) : (s.withChannels cs).channels = cs := rfl
@[simp] theorem State.withChannels_mus (s : State) (cs : Channels) : (s.withChannels cs).mus = s.mus := rfl
@[simp] theorem State.withChannels_masterVol (s : State) (cs : Channels) : (s.withChannels cs).masterVol = s.masterVol := rfl
@[simp] theorem State.withChannels_cart (s : State) (cs : Channels) : (s.withChannels cs).cart = s.cart := rfl
@[simp] theorem State.withChannels_errCause (s : State) (cs : Channels) : (s.withChannels cs).errCause = s.errCause := rfl
@[simp] theorem State.withChannels_vm (s : State) (cs : Channels) : (s.withChannels cs).vm = s.vm := rfl
@[simp] theorem State.withChannels_dec (s : State) (cs : Channels) : (s.withChannels cs).dec = s.dec := rfl
@[simp] theorem State.withChannels_port (s : State) (cs : Channels) : (s.withChannels cs).port = s.port := rfl
@[simp] theorem State.withChannels_result (s : State) (cs : Channels) : (s.withChannels cs).result = s.result := rfl
@[simp] theorem State.withChannels_sampleOut (s : State) (cs : Channels) : (s.withChannels cs).sampleOut = s.sampleOut := rfl
@[simp] theorem State.withChannels_loadAnswers (s : State) (cs : Channels) : (s.withChannels cs).loadAnswers = s.loadAnswers := rfl
@[simp] theorem State.withChannels_hookAnswers (s : State) (cs : Channels) : (s.withChannels cs).hookAnswers = s.hookAnswers := rfl
@[simp] theorem State.withChannels_engineCalls (s : State) (cs : Channels) : (s.withChannels cs).engineCalls = s.engineCalls := rfl

/-! `State.withVm` -/

@[simp] theorem State.withVm_cfg (s : State) (v : Controller) : (s.withVm v).cfg = s.cfg := rfl
@[simp] theorem State.withVm_mem (s : State) (v : Controller) : (s.withVm v).mem = s.mem := rfl
@[simp] theorem State.withVm_channels (s : State) (v : Controller) : (s.withVm v).channels = s.channels := rfl
@[simp] theorem State.withVm_mus (s : State) (v : Controller) : (s.withVm v).mus = s.mus := rfl
@[simp] theorem State.withVm_masterVol (s : State) (v : Controller) : (s.withVm v).masterVol = s.masterVol := rfl
@[simp] theorem State.withVm_cart (s : State) (v : Controller) : (s.withVm v).cart = s.cart := rfl
@[simp] theorem State.withVm_errCause (s : State) (v : Controller) : (s.withVm v).errCause = s.errCause := rfl
@[simp] theorem State.withVm_vm (s : State) (v : Controller) : (s.withVm v).vm = v := rfl
@[simp] theorem State.withVm_dec (s : State) (v : Controller) : (s.withVm v).dec = s.dec := rfl
@[simp] theorem State.withVm_port (s : State) (v : Controller) : (s.withVm v).port = s.port := rfl
@[simp] theorem State.withVm_result (s : State) (v : Controller) : (s.withVm v).result = s.result := rfl
@[simp] theorem State.withVm_sampleOut (s : State) (v : Controller) : (s.withVm v).sampleOut = s.sampleOut := rfl
@[simp] theorem State.withVm_loadAnswers (s : State) (v : Controller) : (s.withVm v).loadAnswers = s.loadAnswers := rfl
@[simp] theorem State.withVm_hookAnswers (s : State) (v : Controller) : (s.withVm v).hookAnswers = s.hookAnswers := rfl
@[simp] theorem State.withVm_engineCalls (s : State) (v : Controller) : (s.withVm v).engineCalls = s.engineCalls := rfl

/-! `State.enter` -/

@[simp] theorem State.enter_cfg (s : State) (l : Lifecycle) : (s.enter l).cfg = s.cfg := rfl
@[simp] theorem State.enter_mem (s : State) (l : Lifecycle) : (s.enter l).mem = s.mem := rfl
@[simp] theorem State.enter_channels (s : State) (l : Lifecycle) : (s.enter l).channels = s.channels := rfl
@[simp] theorem State.enter_mus (s : State) (l : Lifecycle) : (s.enter l).mus = s.mus := rfl
@[simp] theorem State.enter_masterVol (s : State) (l : Lifecycle) : (s.enter l).masterVol = s.masterVol := rfl
@[simp] theorem State.enter_cart (s : State) (l : Lifecycle) : (s.enter l).cart = s.cart := rfl
@[simp] theorem State.enter_errCause (s : State) (l : Lifecycle) : (s.enter l).errCause = s.errCause := rfl
@[simp] theorem State.enter_vm (s : State) (l : Lifecycle) : (s.enter l).vm = { s.vm with state := l } := rfl
@[simp] theorem State.enter_dec (s : State) (l : Lifecycle) : (s.enter l).dec = s.dec := rfl
@[simp] theorem State.enter_port (s : State) (l : Lifecycle) : (s.enter l).port = s.port := rfl
@[simp] theorem State.enter_result (s : State) (l : Lifecycle) : (s.enter l).result = s.result := rfl
@[simp] theorem State.enter_sampleOut (s : State) (l : Lifecycle) : (s.enter l).sampleOut = s.sampleOut := rfl
@[simp] theorem State.enter_loadAnswers (s : State) (l : Lifecycle) : (s.enter l).loadAnswers = s.loadAnswers := rfl
@[simp] theorem State.enter_hookAnswers (s : State) (l : Lifecycle) : (s.enter l).hookAnswers = s.hookAnswers := rfl
@[simp] theorem State.enter_engineCalls (s : State) (l : Lifecycle) : (s.enter l).engineCalls = s.engineCalls := rfl

/-! `State.returns` -/

@[simp] theorem State.returns_cfg (s : State) (w : Word) : (s.returns w).cfg = s.cfg := rfl
@[simp] theorem State.returns_mem (s : State) (w : Word) : (s.returns w).mem = s.mem := rfl
@[simp] theorem State.returns_channels (s : State) (w : Word) : (s.returns w).channels = s.channels := rfl
@[simp] theorem State.returns_mus (s : State) (w : Word) : (s.returns w).mus = s.mus := rfl
@[simp] theorem State.returns_masterVol (s : State) (w : Word) : (s.returns w).masterVol = s.masterVol := rfl
@[simp] theorem State.returns_cart (s : State) (w : Word) : (s.returns w).cart = s.cart := rfl
@[simp] theorem State.returns_errCause (s : State) (w : Word) : (s.returns w).errCause = s.errCause := rfl
@[simp] theorem State.returns_vm (s : State) (w : Word) : (s.returns w).vm = s.vm := rfl
@[simp] theorem State.returns_dec (s : State) (w : Word) : (s.returns w).dec = s.dec := rfl
@[simp] theorem State.returns_port (s : State) (w : Word) : (s.returns w).port = s.port := rfl
@[simp] theorem State.returns_result (s : State) (w : Word) : (s.returns w).result = some w := rfl
@[simp] theorem State.returns_sampleOut (s : State) (w : Word) : (s.returns w).sampleOut = s.sampleOut := rfl
@[simp] theorem State.returns_loadAnswers (s : State) (w : Word) : (s.returns w).loadAnswers = s.loadAnswers := rfl
@[simp] theorem State.returns_hookAnswers (s : State) (w : Word) : (s.returns w).hookAnswers = s.hookAnswers := rfl
@[simp] theorem State.returns_engineCalls (s : State) (w : Word) : (s.returns w).engineCalls = s.engineCalls := rfl

/-! `State.noResult` -/

@[simp] theorem State.noResult_cfg (s : State) : (s.noResult).cfg = s.cfg := rfl
@[simp] theorem State.noResult_mem (s : State) : (s.noResult).mem = s.mem := rfl
@[simp] theorem State.noResult_channels (s : State) : (s.noResult).channels = s.channels := rfl
@[simp] theorem State.noResult_mus (s : State) : (s.noResult).mus = s.mus := rfl
@[simp] theorem State.noResult_masterVol (s : State) : (s.noResult).masterVol = s.masterVol := rfl
@[simp] theorem State.noResult_cart (s : State) : (s.noResult).cart = s.cart := rfl
@[simp] theorem State.noResult_errCause (s : State) : (s.noResult).errCause = s.errCause := rfl
@[simp] theorem State.noResult_vm (s : State) : (s.noResult).vm = s.vm := rfl
@[simp] theorem State.noResult_dec (s : State) : (s.noResult).dec = s.dec := rfl
@[simp] theorem State.noResult_port (s : State) : (s.noResult).port = s.port := rfl
@[simp] theorem State.noResult_result (s : State) : (s.noResult).result = none := rfl
@[simp] theorem State.noResult_sampleOut (s : State) : (s.noResult).sampleOut = s.sampleOut := rfl
@[simp] theorem State.noResult_loadAnswers (s : State) : (s.noResult).loadAnswers = s.loadAnswers := rfl
@[simp] theorem State.noResult_hookAnswers (s : State) : (s.noResult).hookAnswers = s.hookAnswers := rfl
@[simp] theorem State.noResult_engineCalls (s : State) : (s.noResult).engineCalls = s.engineCalls := rfl

/-! `State.ignored` -/

@[simp] theorem State.ignored_cfg (s : State) : (s.ignored).cfg = s.cfg := rfl
@[simp] theorem State.ignored_mem (s : State) : (s.ignored).mem = s.mem := rfl
@[simp] theorem State.ignored_channels (s : State) : (s.ignored).channels = s.channels := rfl
@[simp] theorem State.ignored_mus (s : State) : (s.ignored).mus = s.mus := rfl
@[simp] theorem State.ignored_masterVol (s : State) : (s.ignored).masterVol = s.masterVol := rfl
@[simp] theorem State.ignored_cart (s : State) : (s.ignored).cart = s.cart := rfl
@[simp] theorem State.ignored_errCause (s : State) : (s.ignored).errCause = s.errCause := rfl
@[simp] theorem State.ignored_vm (s : State) : (s.ignored).vm = s.vm := rfl
@[simp] theorem State.ignored_dec (s : State) : (s.ignored).dec = s.dec := rfl
@[simp] theorem State.ignored_port (s : State) : (s.ignored).port = s.port := rfl
@[simp] theorem State.ignored_result (s : State) : (s.ignored).result = some 0 := rfl
@[simp] theorem State.ignored_sampleOut (s : State) : (s.ignored).sampleOut = s.sampleOut := rfl
@[simp] theorem State.ignored_loadAnswers (s : State) : (s.ignored).loadAnswers = s.loadAnswers := rfl
@[simp] theorem State.ignored_hookAnswers (s : State) : (s.ignored).hookAnswers = s.hookAnswers := rfl
@[simp] theorem State.ignored_engineCalls (s : State) : (s.ignored).engineCalls = s.engineCalls := rfl

/-! `State.raiseLoadError` -/

@[simp] theorem State.raiseLoadError_cfg (s : State) (c : Cause) : (s.raiseLoadError c).cfg = s.cfg := rfl
@[simp] theorem State.raiseLoadError_mem (s : State) (c : Cause) : (s.raiseLoadError c).mem = s.mem := rfl
@[simp] theorem State.raiseLoadError_channels (s : State) (c : Cause) : (s.raiseLoadError c).channels = s.channels := rfl
@[simp] theorem State.raiseLoadError_mus (s : State) (c : Cause) : (s.raiseLoadError c).mus = s.mus := rfl
@[simp] theorem State.raiseLoadError_masterVol (s : State) (c : Cause) : (s.raiseLoadError c).masterVol = s.masterVol := rfl
@[simp] theorem State.raiseLoadError_cart (s : State) (c : Cause) : (s.raiseLoadError c).cart = { s.cart with valid := false, codeLen := 0 } := rfl
@[simp] theorem State.raiseLoadError_errCause (s : State) (c : Cause) : (s.raiseLoadError c).errCause = c := rfl
@[simp] theorem State.raiseLoadError_vm (s : State) (c : Cause) : (s.raiseLoadError c).vm = s.vm := rfl
@[simp] theorem State.raiseLoadError_dec (s : State) (c : Cause) : (s.raiseLoadError c).dec = { s.dec with stage := .idle } := rfl
@[simp] theorem State.raiseLoadError_port (s : State) (c : Cause) : (s.raiseLoadError c).port = s.port := rfl
@[simp] theorem State.raiseLoadError_result (s : State) (c : Cause) : (s.raiseLoadError c).result = some (BitVec.ofInt 32 s.cfg.errSentinel) := rfl
@[simp] theorem State.raiseLoadError_sampleOut (s : State) (c : Cause) : (s.raiseLoadError c).sampleOut = s.sampleOut := rfl
@[simp] theorem State.raiseLoadError_loadAnswers (s : State) (c : Cause) : (s.raiseLoadError c).loadAnswers = s.loadAnswers := rfl
@[simp] theorem State.raiseLoadError_hookAnswers (s : State) (c : Cause) : (s.raiseLoadError c).hookAnswers = s.hookAnswers := rfl
@[simp] theorem State.raiseLoadError_engineCalls (s : State) (c : Cause) : (s.raiseLoadError c).engineCalls = s.engineCalls := rfl

/-! `State.raiseScriptError` -/

@[simp] theorem State.raiseScriptError_cfg (s : State) (msg : Bytes) : (s.raiseScriptError msg).cfg = s.cfg := rfl
@[simp] theorem State.raiseScriptError_mem (s : State) (msg : Bytes) : (s.raiseScriptError msg).mem = s.mem := rfl
@[simp] theorem State.raiseScriptError_channels (s : State) (msg : Bytes) : (s.raiseScriptError msg).channels = s.channels := rfl
@[simp] theorem State.raiseScriptError_mus (s : State) (msg : Bytes) : (s.raiseScriptError msg).mus = s.mus := rfl
@[simp] theorem State.raiseScriptError_masterVol (s : State) (msg : Bytes) : (s.raiseScriptError msg).masterVol = s.masterVol := rfl
@[simp] theorem State.raiseScriptError_cart (s : State) (msg : Bytes) : (s.raiseScriptError msg).cart = s.cart := rfl
@[simp] theorem State.raiseScriptError_errCause (s : State) (msg : Bytes) : (s.raiseScriptError msg).errCause = s.errCause := rfl
@[simp] theorem State.raiseScriptError_vm (s : State) (msg : Bytes) : (s.raiseScriptError msg).vm = { s.vm with state := .error, errorMsg := msg } := rfl
@[simp] theorem State.raiseScriptError_dec (s : State) (msg : Bytes) : (s.raiseScriptError msg).dec = s.dec := rfl
@[simp] theorem State.raiseScriptError_port (s : State) (msg : Bytes) : (s.raiseScriptError msg).port = s.port := rfl
@[simp] theorem State.raiseScriptError_result (s : State) (msg : Bytes) : (s.raiseScriptError msg).result = s.result := rfl
@[simp] theorem State.raiseScriptError_sampleOut (s : State) (msg : Bytes) : (s.raiseScriptError msg).sampleOut = s.sampleOut := rfl
@[simp] theorem State.raiseScriptError_loadAnswers (s : State) (msg : Bytes) : (s.raiseScriptError msg).loadAnswers = s.loadAnswers := rfl
@[simp] theorem State.raiseScriptError_hookAnswers (s : State) (msg : Bytes) : (s.raiseScriptError msg).hookAnswers = s.hookAnswers := rfl
@[simp] theorem State.raiseScriptError_engineCalls (s : State) (msg : Bytes) : (s.raiseScriptError msg).engineCalls = s.engineCalls := rfl

/-! `State.popPort` -/

@[simp] theorem State.popPort_cfg (s : State) : (s.popPort).cfg = s.cfg := rfl
@[simp] theorem State.popPort_mem (s : State) : (s.popPort).mem = s.mem := rfl
@[simp] theorem State.popPort_channels (s : State) : (s.popPort).channels = s.channels := rfl
@[simp] theorem State.popPort_mus (s : State) : (s.popPort).mus = s.mus := rfl
@[simp] theorem State.popPort_masterVol (s : State) : (s.popPort).masterVol = s.masterVol := rfl
@[simp] theorem State.popPort_cart (s : State) : (s.popPort).cart = s.cart := rfl
@[simp] theorem State.popPort_errCause (s : State) : (s.popPort).errCause = s.errCause := rfl
@[simp] theorem State.popPort_vm (s : State) : (s.popPort).vm = s.vm := rfl
@[simp] theorem State.popPort_dec (s : State) : (s.popPort).dec = s.dec := rfl
@[simp] theorem State.popPort_port (s : State) : (s.popPort).port = s.port.drop 1 := rfl
@[simp] theorem State.popPort_result (s : State) : (s.popPort).result = s.result := rfl
@[simp] theorem State.popPort_sampleOut (s : State) : (s.popPort).sampleOut = s.sampleOut := rfl
@[simp] theorem State.popPort_loadAnswers (s : State) : (s.popPort).loadAnswers = s.loadAnswers := rfl
@[simp] theorem State.popPort_hookAnswers (s : State) : (s.popPort).hookAnswers = s.hookAnswers := rfl
@[simp] theorem State.popPort_engineCalls (s : State) : (s.popPort).engineCalls = s.engineCalls := rfl

/-! `State.consume` -/

@[simp] theorem State.consume_cfg (s : State) (pos : Nat) : (s.consume pos).cfg = s.cfg := rfl
@[simp] theorem State.consume_mem (s : State) (pos : Nat) : (s.consume pos).mem = s.mem := rfl
@[simp] theorem State.consume_channels (s : State) (pos : Nat) : (s.consume pos).channels = s.channels := rfl
@[simp] theorem State.consume_mus (s : State) (pos : Nat) : (s.consume pos).mus = s.mus := rfl
@[simp] theorem State.consume_masterVol (s : State) (pos : Nat) : (s.consume pos).masterVol = s.masterVol := rfl
@[simp] theorem State.consume_cart (s : State) (pos : Nat) : (s.consume pos).cart = s.cart := rfl
@[simp] theorem State.consume_errCause (s : State) (pos : Nat) : (s.consume pos).errCause = s.errCause := rfl
@[simp] theorem State.consume_vm (s : State) (pos : Nat) : (s.consume pos).vm = s.vm := rfl
@[simp] theorem State.consume_dec (s : State) (pos : Nat) : (s.consume pos).dec = { s.dec with inPos := pos } := rfl
@[simp] theorem State.consume_port (s : State) (pos : Nat) : (s.consume pos).port = s.port := rfl
@[simp] theorem State.consume_result (s : State) (pos : Nat) : (s.consume pos).result = s.result := rfl
@[simp] theorem State.consume_sampleOut (s : State) (pos : Nat) : (s.consume pos).sampleOut = s.sampleOut := rfl
@[simp] theorem State.consume_loadAnswers (s : State) (pos : Nat) : (s.consume pos).loadAnswers = s.loadAnswers := rfl
@[simp] theorem State.consume_hookAnswers (s : State) (pos : Nat) : (s.consume pos).hookAnswers = s.hookAnswers := rfl
@[simp] theorem State.consume_engineCalls (s : State) (pos : Nat) : (s.consume pos).engineCalls = s.engineCalls := rfl

/-! `State.tookLoadAnswer` -/

@[simp] theorem State.tookLoadAnswer_cfg (s : State) : (s.tookLoadAnswer).cfg = s.cfg := rfl
@[simp] theorem State.tookLoadAnswer_mem (s : State) : (s.tookLoadAnswer).mem = s.mem := rfl
@[simp] theorem State.tookLoadAnswer_channels (s : State) : (s.tookLoadAnswer).channels = s.channels := rfl
@[simp] theorem State.tookLoadAnswer_mus (s : State) : (s.tookLoadAnswer).mus = s.mus := rfl
@[simp] theorem State.tookLoadAnswer_masterVol (s : State) : (s.tookLoadAnswer).masterVol = s.masterVol := rfl
@[simp] theorem State.tookLoadAnswer_cart (s : State) : (s.tookLoadAnswer).cart = s.cart := rfl
@[simp] theorem State.tookLoadAnswer_errCause (s : State) : (s.tookLoadAnswer).errCause = s.errCause := rfl
@[simp] theorem State.tookLoadAnswer_vm (s : State) : (s.tookLoadAnswer).vm = s.vm := rfl
@[simp] theorem State.tookLoadAnswer_dec (s : State) : (s.tookLoadAnswer).dec = s.dec := rfl
@[simp] theorem State.tookLoadAnswer_port (s : State) : (s.tookLoadAnswer).port = s.port := rfl
@[simp] theorem State.tookLoadAnswer_result (s : State) : (s.tookLoadAnswer).result = s.result := rfl
@[simp] theorem State.tookLoadAnswer_sampleOut (s : State) : (s.tookLoadAnswer).sampleOut = s.sampleOut := rfl
@[simp] theorem State.tookLoadAnswer_loadAnswers (s : State) : (s.tookLoadAnswer).loadAnswers = s.loadAnswers.drop 1 := rfl
@[simp] theorem State.tookLoadAnswer_hookAnswers (s : State) : (s.tookLoadAnswer).hookAnswers = s.hookAnswers := rfl
@[simp] theorem State.tookLoadAnswer_engineCalls (s : State) : (s.tookLoadAnswer).engineCalls = s.engineCalls + 1 := rfl

/-! `State.tookHookAnswer` -/

@[simp] theorem State.tookHookAnswer_cfg (s : State) : (s.tookHookAnswer).cfg = s.cfg := rfl
@[simp] theorem State.tookHookAnswer_mem (s : State) : (s.tookHookAnswer).mem = s.mem := rfl
@[simp] theorem State.tookHookAnswer_channels (s : State) : (s.tookHookAnswer).channels = s.channels := rfl
@[simp] theorem State.tookHookAnswer_mus (s : State) : (s.tookHookAnswer).mus = s.mus := rfl
@[simp] theorem State.tookHookAnswer_masterVol (s : State) : (s.tookHookAnswer).masterVol = s.masterVol := rfl
@[simp] theorem State.tookHookAnswer_cart (s : State) : (s.tookHookAnswer).cart = s.cart := rfl
@[simp] theorem State.tookHookAnswer_errCause (s : State) : (s.tookHookAnswer).errCause = s.errCause := rfl
@[simp] theorem State.tookHookAnswer_vm (s : State) : (s.tookHookAnswer).vm = s.vm := rfl
@[simp] theorem State.tookHookAnswer_dec (s : State) : (s.tookHookAnswer).dec = s.dec := rfl
@[simp] theorem State.tookHookAnswer_port (s : State) : (s.tookHookAnswer).port = s.port := rfl
@[simp] theorem State.tookHookAnswer_result (s : State) : (s.tookHookAnswer).result = s.result := rfl
@[simp] theorem State.tookHookAnswer_sampleOut (s : State) : (s.tookHookAnswer).sampleOut = s.sampleOut := rfl
@[simp] theorem State.tookHookAnswer_loadAnswers (s : State) : (s.tookHookAnswer).loadAnswers = s.loadAnswers := rfl
@[simp] theorem State.tookHookAnswer_hookAnswers (s : State) : (s.tookHookAnswer).hookAnswers = s.hookAnswers.drop 1 := rfl
@[simp] theorem State.tookHookAnswer_engineCalls (s : State) : (s.tookHookAnswer).engineCalls = s.engineCalls + 1 := rfl

/-! `State.commitFrame` -/

@[simp] theorem State.commitFrame_cfg (s : State) : (s.commitFrame).cfg = s.cfg := rfl
@[simp] theorem State.commitFrame_mem (s : State) : (s.commitFrame).mem = s.mem := rfl
@[simp] theorem State.commitFrame_channels (s : State) : (s.commitFrame).channels = s.channels := rfl
@[simp] theorem State.commitFrame_mus (s : State) : (s.commitFrame).mus = s.mus.frameTick := rfl
@[simp] theorem State.commitFrame_masterVol (s : State) : (s.commitFrame).masterVol = s.masterVol := rfl
@[simp] theorem State.commitFrame_cart (s : State) : (s.commitFrame).cart = s.cart := rfl
@[simp] theorem State.commitFrame_errCause (s : State) : (s.commitFrame).errCause = s.errCause := rfl
@[simp] theorem State.commitFrame_vm (s : State) : (s.commitFrame).vm = { s.vm with committed := true, frame := s.vm.frame + 1 } := rfl
@[simp] theorem State.commitFrame_dec (s : State) : (s.commitFrame).dec = s.dec := rfl
@[simp] theorem State.commitFrame_port (s : State) : (s.commitFrame).port = s.port := rfl
@[simp] theorem State.commitFrame_result (s : State) : (s.commitFrame).result = s.result := rfl
@[simp] theorem State.commitFrame_sampleOut (s : State) : (s.commitFrame).sampleOut = s.sampleOut := rfl
@[simp] theorem State.commitFrame_loadAnswers (s : State) : (s.commitFrame).loadAnswers = s.loadAnswers := rfl
@[simp] theorem State.commitFrame_hookAnswers (s : State) : (s.commitFrame).hookAnswers = s.hookAnswers := rfl
@[simp] theorem State.commitFrame_engineCalls (s : State) : (s.commitFrame).engineCalls = s.engineCalls := rfl

/-! `State.markLoaded` -/

@[simp] theorem State.markLoaded_cfg (s : State) : (s.markLoaded).cfg = s.cfg := rfl
@[simp] theorem State.markLoaded_mem (s : State) : (s.markLoaded).mem = s.mem := rfl
@[simp] theorem State.markLoaded_channels (s : State) : (s.markLoaded).channels = s.channels := rfl
@[simp] theorem State.markLoaded_mus (s : State) : (s.markLoaded).mus = s.mus := rfl
@[simp] theorem State.markLoaded_masterVol (s : State) : (s.markLoaded).masterVol = s.masterVol := rfl
@[simp] theorem State.markLoaded_cart (s : State) : (s.markLoaded).cart = { s.cart with valid := true, codeLen := s.dec.codeOut.length } := rfl
@[simp] theorem State.markLoaded_errCause (s : State) : (s.markLoaded).errCause = .noError := rfl
@[simp] theorem State.markLoaded_vm (s : State) : (s.markLoaded).vm = s.vm := rfl
@[simp] theorem State.markLoaded_dec (s : State) : (s.markLoaded).dec = s.dec := rfl
@[simp] theorem State.markLoaded_port (s : State) : (s.markLoaded).port = s.port := rfl
@[simp] theorem State.markLoaded_result (s : State) : (s.markLoaded).result = s.result := rfl
@[simp] theorem State.markLoaded_sampleOut (s : State) : (s.markLoaded).sampleOut = s.sampleOut := rfl
@[simp] theorem State.markLoaded_loadAnswers (s : State) : (s.markLoaded).loadAnswers = s.loadAnswers := rfl
@[simp] theorem State.markLoaded_hookAnswers (s : State) : (s.markLoaded).hookAnswers = s.hookAnswers := rfl
@[simp] theorem State.markLoaded_engineCalls (s : State) : (s.markLoaded).engineCalls = s.engineCalls := rfl

end Sys2Proof.Machine
end

