-- ==== Sys2Proof/Laws/Ops.lean ====
section
/-! SUPPORT. What the shared operations of Sys2Proof/Machine/Ops.lean, Operands.lean and PixelPath.lean can
do, each said once: which bytes they may write (`WritesOnly`: nothing else of the state, and the canonical
form kept) and what a byte or a pixel reads as afterwards. -/

namespace Sys2Proof.Machine

/-! ## `WritesOnly` -/

theorem WritesOnly.refl (P : Nat → Prop) (s : State) : WritesOnly P s s := ⟨rfl, fun h => ⟨h, fun _ _ => rfl⟩⟩

theorem WritesOnly.mono {P Q : Nat → Prop} {s t : State} (h : WritesOnly P s t) (hpq : ∀ a, P a → Q a) :
    WritesOnly Q s t := ⟨h.1, fun hw => ⟨(h.2 hw).1, fun a ha => (h.2 hw).2 a fun hp => ha (hpq a hp)⟩⟩

theorem WritesOnly.trans {P : Nat → Prop} {s t u : State} (h : WritesOnly P s t) (h' : WritesOnly P t u) :
    WritesOnly P s u := by
  refine ⟨?_, fun hw => ?_⟩
  · rw [h'.1, h.1]; rfl
  · obtain ⟨hw', hp⟩ := h.2 hw
    obtain ⟨hw'', hp'⟩ := h'.2 hw'
    exact ⟨hw'', fun a ha => (hp' a ha).trans (hp a ha)⟩

/-- A field other than the memory is the same after an operation that only writes memory. -/
theorem WritesOnly.field {P : Nat → Prop} {s t : State} (h : WritesOnly P s t) {β : Type} (f : State → β)
    (hf : ∀ (s : State) (m : Memory), f (s.withMem m) = f s) : f t = f s := by rw [h.1, hf]

theorem WritesOnly.cfg {P : Nat → Prop} {s t : State} (h : WritesOnly P s t) : t.cfg = s.cfg :=
  h.field State.cfg fun _ _ => rfl

theorem WritesOnly.dec {P : Nat → Prop} {s t : State} (h : WritesOnly P s t) : t.dec = s.dec :=
  h.field State.dec fun _ _ => rfl

theorem WritesOnly.vm {P : Nat → Prop} {s t : State} (h : WritesOnly P s t) : t.vm = s.vm :=
  h.field State.vm fun _ _ => rfl

theorem WritesOnly.channels {P : Nat → Prop} {s t : State} (h : WritesOnly P s t) : t.channels = s.channels :=
  h.field State.channels fun _ _ => rfl

theorem WritesOnly.cart {P : Nat → Prop} {s t : State} (h : WritesOnly P s t) : t.cart = s.cart :=
  h.field State.cart fun _ _ => rfl

theorem WritesOnly.wf {P : Nat → Prop} {s t : State} (h : WritesOnly P s t) (hw : s.mem.wf = true) :
    t.mem.wf = true := (h.2 hw).1

theorem WritesOnly.peek {P : Nat → Prop} {s t : State} (h : WritesOnly P s t) (hw : s.mem.wf = true) {a : Nat}
    (ha : ¬ P a) : t.peek a = s.peek a := (h.2 hw).2 a ha

/-- A command that ends with `noResult` writes only what the operation before it writes. -/
theorem WritesOnly.noResult {P : Nat → Prop} {s t : State} (h : WritesOnly P s t) :
    WritesOnly P s.noResult t.noResult := by
  refine ⟨?_, fun hw => h.2 hw⟩
  conv_lhs => rw [h.1]
  rfl

/-! ## Single bytes -/

theorem State.poke_writes (s : State) (a : Nat) (b : Byte) : WritesOnly (· = a) s (s.poke a b) := by
  unfold State.poke
  split
  · rename_i h
    refine ⟨rfl, fun hw => ⟨Memory.wf_set hw h b, fun x hx => ?_⟩⟩
    simp only [State.peek, State.withMem_mem, Memory.get_set hw, if_neg hx]
  · exact WritesOnly.refl _ s

/-- A byte read after a byte written. -/
theorem State.peek_poke (s : State) (hw : s.mem.wf = true) (a : Nat) (b : Byte) (x : Nat) :
    (s.poke a b).peek x = if x = a ∧ a < ramSize then b else s.peek x := by
  unfold State.poke
  by_cases ha : a < ramSize
  · simp only [ha, if_true, and_true, State.peek, State.withMem_mem, Memory.get_set hw]
  · simp [ha]

theorem State.pokeAll_writes (s : State) (a : Nat) (bs : Bytes) :
    WritesOnly (fun x => a ≤ x ∧ x < a + bs.length) s (s.pokeAll a bs) := by
  induction bs generalizing s a with
  | nil => exact WritesOnly.refl _ s
  | cons b bs ih =>
    have hl : (b :: bs).length = bs.length + 1 := rfl
    exact ((s.poke_writes a b).mono (by intro x hx; subst hx; omega)).trans
      ((ih (s.poke a b) (a + 1)).mono (by intro x hx; omega))

/-- A byte read after bytes stored one by one inside the memory. -/
theorem State.peek_pokeAll (s : State) (hw : s.mem.wf = true) (a : Nat) (bs : Bytes)
    (h : a + bs.length ≤ ramSize) (x : Nat) :
    (s.pokeAll a bs).peek x = if a ≤ x ∧ x < a + bs.length then bs.getD (x - a) 0 else s.peek x := by
  induction bs generalizing s a with
  | nil => simp [State.pokeAll, show ¬ (a ≤ x ∧ x < a) by omega]
  | cons b bs ih =>
    have hl : (b :: bs).length = bs.length + 1 := rfl
    simp only [State.pokeAll]
    rw [ih (s.poke a b) ((s.poke_writes a b).wf hw) (a + 1) (by omega), State.peek_poke s hw]
    by_cases hx : x = a
    · subst hx
      rw [if_neg (by omega), if_pos ⟨rfl, by omega⟩, if_pos (by omega)]; simp
    · by_cases h1 : a + 1 ≤ x ∧ x < a + 1 + bs.length
      · have : x - a = (x - (a + 1)) + 1 := by omega
        rw [if_pos h1, if_pos (by omega), this]; simp
      · rw [if_neg h1, if_neg (by omega), if_neg (by omega)]

theorem leBytes_length (n v : Nat) : (leBytes n v).length = n := by
  induction n generalizing v with
  | zero => rfl
  | succ n ih => simp [leBytes, ih]

theorem State.memWrite_writes (s : State) (addr : Int) (n : Nat) (v : Word) :
    WritesOnly (fun x => addr ≤ x ∧ (x : Int) < addr + n) s (s.memWrite addr n v) := by
  unfold State.memWrite
  split
  · rename_i h
    simp only [inRange, Bool.and_eq_true, decide_eq_true_eq] at h
    refine (s.pokeAll_writes addr.toNat (leBytes n v.toNat)).mono fun x hx => ?_
    rw [leBytes_length] at hx
    omega
  · exact WritesOnly.refl _ s

theorem State.pokePairs_writes (s : State) (l : List (Nat × Byte)) :
    WritesOnly (fun x => x ∈ l.map (·.1)) s (s.pokePairs l) := by
  induction l generalizing s with
  | nil => exact WritesOnly.refl _ s
  | cons q l ih =>
    obtain ⟨a, b⟩ := q
    exact ((s.poke_writes a b).mono (by intro x hx; simp [hx])).trans
      ((ih (s.poke a b)).mono (by intro x hx; simp only [List.map_cons, List.mem_cons]; exact Or.inr hx))

/-- A byte read after a list of bytes stored in order: the last one stored there. -/
theorem State.peek_pokePairs (s : State) (hw : s.mem.wf = true) (l : List (Nat × Byte)) (x : Nat)
    (hx : x < ramSize) :
    (s.pokePairs l).peek x = ((l.reverse.find? fun q => q.1 == x).map (·.2)).getD (s.peek x) := by
  induction l generalizing s with
  | nil => rfl
  | cons q l ih =>
    obtain ⟨a, b⟩ := q
    simp only [State.pokePairs]
    rw [ih (s.poke a b) ((s.poke_writes a b).wf hw), List.reverse_cons, List.find?_append,
      State.peek_poke s hw]
    cases hf : List.find? (fun q => q.1 == x) l.reverse with
    | some v => simp
    | none =>
      by_cases ha : a = x
      · subst ha; simp [hx]
      · simp [ha, Ne.symm ha]

theorem State.poke16_writes (s : State) (a : Nat) (v : Half) :
    WritesOnly (fun x => a ≤ x ∧ x < a + 2) s (s.poke16 a v) :=
  ((s.poke_writes a _).mono (by intro x hx; omega)).trans
    (((s.poke a _).poke_writes (a + 1) _).mono (by intro x hx; omega))

/-- The two bytes of a 16-bit value put together again. -/
theorem bytes_append (v : Half) : v.extractLsb' 8 8 ++ v.extractLsb' 0 8 = v := by
  apply BitVec.eq_of_getLsbD_eq
  intro i hi
  rw [BitVec.getLsbD_append]
  by_cases h : i < 8
  · simp [h]
  · simp [h, show i - 8 < 8 by omega, show 8 + (i - 8) = i by omega]

/-- A 16-bit field read back. -/
theorem State.peek16_poke16 (s : State) (hw : s.mem.wf = true) (a : Nat) (ha : a + 1 < ramSize) (v : Half) :
    (s.poke16 a v).peek16 a = v := by
  unfold State.peek16 State.poke16
  have hw' := (s.poke_writes a (v.extractLsb' 0 8)).wf hw
  have h1 : ((s.poke a (v.extractLsb' 0 8)).poke (a + 1) (v.extractLsb' 8 8)).peek (a + 1) =
      v.extractLsb' 8 8 := by rw [State.peek_poke _ hw', if_pos ⟨rfl, ha⟩]
  have h0 : ((s.poke a (v.extractLsb' 0 8)).poke (a + 1) (v.extractLsb' 8 8)).peek a = v.extractLsb' 0 8 := by
    rw [State.peek_poke _ hw', if_neg (by omega), State.peek_poke s hw, if_pos ⟨rfl, by omega⟩]
  rw [h1, h0]
  exact bytes_append v

/-! ## Blocks -/

theorem State.storeBlock_writes (s : State) (a : Nat) (bs : Bytes) :
    WritesOnly (fun x => a ≤ x ∧ x < a + bs.length) s (s.storeBlock a bs) := by
  unfold State.storeBlock
  split
  · rename_i h
    refine ⟨rfl, fun hw => ⟨Memory.wf_setBlock hw h, fun x hx => ?_⟩⟩
    simp only [State.peek, State.withMem_mem, Memory.get_setBlock, if_neg hx]
  · exact WritesOnly.refl _ s

/-- A byte read after a block stored inside the memory. -/
theorem State.peek_storeBlock (s : State) (a : Nat) (bs : Bytes) (h : a + bs.length ≤ ramSize) (x : Nat) :
    (s.storeBlock a bs).peek x = if a ≤ x ∧ x < a + bs.length then bs.getD (x - a) 0 else s.peek x := by
  simp only [State.storeBlock, if_pos h, State.peek, State.withMem_mem, Memory.get_setBlock]

/-- The bytes of a block read. -/
theorem Memory.getBlock_getD (m : Memory) (a n i : Nat) (h : i < n) : (m.getBlock a n).getD i 0 = m.get (a + i) := by
  simp [Memory.getBlock, h]

theorem Memory.getBlock_length (m : Memory) (a n : Nat) : (m.getBlock a n).length = n := by
  simp [Memory.getBlock]

/-! ## Pixels -/

/-- The address of an on-screen pixel lies in the framebuffer. -/
theorem pixelAddr_range {base : Nat} {x y : Int} (h : onSheet x y = true) :
    base ≤ pixelAddr base x y ∧ pixelAddr base x y < base + 0x2000 := by
  simp only [onSheet, Bool.and_eq_true, decide_eq_true_eq] at h
  unfold pixelAddr
  omega

/-- Two pixels of one sheet share a byte only side by side: an even one and the odd one right of it. -/
theorem pixelAddr_inj {base : Nat} {x y x' y' : Int} (h : onSheet x y = true) (h' : onSheet x' y' = true)
    (he : pixelAddr base x y = pixelAddr base x' y') : y = y' ∧ x / 2 = x' / 2 := by
  simp only [onSheet, Bool.and_eq_true, decide_eq_true_eq] at h h'
  unfold pixelAddr at he
  omega

theorem State.pset_writes (s : State) (base : Nat) (x y : Int) (c : BitVec 4) :
    WritesOnly (fun a => onSheet x y = true ∧ a = pixelAddr base x y) s (s.pset base x y c) := by
  unfold State.pset
  split
  · rename_i h
    exact (s.poke_writes _ _).mono (by intro a ha; exact ⟨h, ha⟩)
  · exact WritesOnly.refl _ s

theorem extract_low_append (h l : BitVec 4) : (h ++ l : BitVec 8).extractLsb' 0 4 = l := by
  revert h l
  decide +kernel

theorem extract_high_append (h l : BitVec 4) : (h ++ l : BitVec 8).extractLsb' 4 4 = h := by
  revert h l
  decide +kernel

/-- The nibble of a byte that a column's pixel has (40_memory_ops.md R180). -/
def nibbleAt (b : Byte) (x : Int) : BitVec 4 := if x % 2 = 0 then b.extractLsb' 0 4 else b.extractLsb' 4 4

theorem nibbleAt_setNibble (b : Byte) (x : Int) (c : BitVec 4) (x' : Int) :
    nibbleAt (setNibble b x c) x' = if x' % 2 = x % 2 then c else nibbleAt b x' := by
  unfold nibbleAt setNibble
  by_cases h : x % 2 = 0 <;> by_cases h' : x' % 2 = 0
  · simp [h, h', extract_low_append]
  · simp [h, h', extract_high_append]
  · rw [if_neg h, if_pos h', if_pos h', if_neg (by omega), extract_low_append]
  · rw [if_neg h, if_neg h', if_neg h', if_pos (by omega), extract_high_append]

theorem State.pget_on (s : State) (base : Nat) {x y : Int} (h : onSheet x y = true) :
    s.pget base x y = nibbleAt (s.peek (pixelAddr base x y)) x := by
  simp only [State.pget, h, if_true, nibbleAt]

theorem State.pget_off (s : State) (base : Nat) {x y : Int} (h : ¬ onSheet x y = true) :
    s.pget base x y = 0 := by
  simp only [State.pget, h]; rfl

/-- A pixel read after a pixel set (40_memory_ops.md R180, R181): the colour where it was set, and every
other pixel as before. -/
theorem State.pget_pset (s : State) (hw : s.mem.wf = true) (base : Nat) (hb : base + 0x2000 ≤ ramSize)
    (x y : Int) (c : BitVec 4) (x' y' : Int) :
    (s.pset base x y c).pget base x' y' =
      if onSheet x y = true ∧ x' = x ∧ y' = y then c else s.pget base x' y' := by
  by_cases h : onSheet x y = true
  · have hp : s.pset base x y c =
        s.poke (pixelAddr base x y) (setNibble (s.peek (pixelAddr base x y)) x c) := by
      simp only [State.pset, h, if_true]
    rw [hp]
    by_cases h' : onSheet x' y' = true
    · rw [State.pget_on _ _ h', State.pget_on _ _ h', State.peek_poke s hw]
      have hr := pixelAddr_range (base := base) h
      by_cases he : pixelAddr base x' y' = pixelAddr base x y
      · obtain ⟨hy, hx⟩ := pixelAddr_inj h' h he
        rw [if_pos ⟨he, by omega⟩, nibbleAt_setNibble, he]
        by_cases hxx : x' % 2 = x % 2
        · rw [if_pos hxx, if_pos ⟨h, by omega, hy⟩]
        · rw [if_neg hxx, if_neg (by rintro ⟨_, rfl, _⟩; exact hxx rfl)]
      · rw [if_neg fun hh => he hh.1, if_neg (by rintro ⟨_, rfl, rfl⟩; exact he rfl)]
    · rw [State.pget_off _ _ h', State.pget_off _ _ h', if_neg (by rintro ⟨_, rfl, rfl⟩; exact h' h)]
  · rw [if_neg fun hh => h hh.1]
    simp only [State.pset, h]
    rfl

/-! ## The pixel-write path -/

theorem State.pixelPut_writes (s : State) (x y : Int) (c : BitVec 4) :
    WritesOnly (fun a => onSheet x y = true ∧ s.inClip x y = true ∧ a = pixelAddr screenBase x y) s
      (s.pixelPut x y c) := by
  unfold State.pixelPut
  split
  · rename_i h
    simp only [Bool.and_eq_true] at h
    exact (s.pset_writes _ _ _ _).mono (by intro a ha; exact ⟨h.1, h.2, ha.2⟩)
  · exact WritesOnly.refl _ s

theorem State.pixelWrite_writes (s : State) (x y : Int) (col : Byte) :
    WritesOnly (fun a => onSheet x y = true ∧ s.inClip x y = true ∧ a = pixelAddr screenBase x y) s
      (s.pixelWrite x y col) := by
  unfold State.pixelWrite
  split
  · split
    · exact WritesOnly.refl _ s
    · exact s.pixelPut_writes _ _ _
  · exact s.pixelPut_writes _ _ _

theorem screenAddr {x y : Int} (h : onSheet x y = true) : inScreen (pixelAddr screenBase x y) := by
  have := pixelAddr_range (base := screenBase) h
  unfold inScreen screenBase at *
  omega

theorem State.pixelPut_screen (s : State) (x y : Int) (c : BitVec 4) : WritesOnly inScreen s (s.pixelPut x y c) :=
  (s.pixelPut_writes x y c).mono (by rintro a ⟨h, _, rfl⟩; exact screenAddr h)

theorem State.plot_screen (s : State) (x y : Int) : WritesOnly inScreen s (s.plot x y) :=
  (s.pixelWrite_writes x y s.pen).mono (by rintro a ⟨h, _, rfl⟩; exact screenAddr h)

theorem State.plotAll_screen (s : State) (l : List (Int × Int)) : WritesOnly inScreen s (s.plotAll l) := by
  induction l generalizing s with
  | nil => exact WritesOnly.refl _ s
  | cons q l ih => exact (s.plot_screen q.1 q.2).trans (ih _)

theorem State.colorStep_writes (s : State) (c : Operand) :
    WritesOnly (fun a => c.isSome ∧ a = s.cfg.layout.pen) s (s.colorStep c) := by
  cases c with
  | none => exact WritesOnly.refl _ s
  | some w => exact (s.poke_writes _ _).mono (by intro a ha; exact ⟨rfl, ha⟩)

/-! ## The blitters -/

theorem State.blitPixel_screen (s : State) (X Y u v : Int) : WritesOnly inScreen s (s.blitPixel X Y u v) := by
  unfold State.blitPixel
  split
  · split
    · exact WritesOnly.refl _ s
    · exact s.pixelPut_screen _ _ _
  · exact WritesOnly.refl _ s

theorem State.blitAll_screen (s : State) (l : List (Int × Int × Int × Int)) : WritesOnly inScreen s (s.blitAll l) := by
  induction l generalizing s with
  | nil => exact WritesOnly.refl _ s
  | cons q l ih => exact (s.blitPixel_screen _ _ _ _).trans (ih _)

theorem State.drawSprite_screen (s : State) (n x y w h : Int) (fx fy : Bool) :
    WritesOnly inScreen s (s.drawSprite n x y w h fx fy) := by
  unfold State.drawSprite
  split
  · exact WritesOnly.refl _ s
  · exact s.blitAll_screen _

theorem State.drawScaled_screen (s : State) (sx sy sw sh dx dy dw dh : Int) (fx fy : Bool) :
    WritesOnly inScreen s (s.drawScaled sx sy sw sh dx dy dw dh fx fy) := by
  unfold State.drawScaled
  split
  · exact WritesOnly.refl _ s
  · exact s.blitAll_screen _

theorem State.drawCell_screen (s : State) (a b sx sy : Int) (layers : Operand) :
    WritesOnly inScreen s (s.drawCell a b sx sy layers) := by
  unfold State.drawCell
  dsimp only
  split
  · exact WritesOnly.refl _ s
  · split
    · exact s.drawSprite_screen _ _ _ _ _ _ _
    · exact WritesOnly.refl _ s

theorem State.drawCells_screen (s : State) (layers : Operand) (l : List (Int × Int × Int × Int)) :
    WritesOnly inScreen s (s.drawCells layers l) := by
  induction l generalizing s with
  | nil => exact WritesOnly.refl _ s
  | cons q l ih => exact (s.drawCell_screen _ _ _ _ _).trans (ih _)

/-! ## Reset -/

theorem keepPersist_wf {m : Memory} (hm : m.wf = true) : (keepPersist m).wf = true := Memory.wf_filter hm _

theorem keepPersist_get (m : Memory) (x : Nat) :
    (keepPersist m).get x = if persistBase ≤ x ∧ x < persistEnd then m.get x else 0 := by
  have := get_filter (fun k => decide (persistBase ≤ k) && decide (k < persistEnd)) m x
  simpa [keepPersist] using this

/-- The memory after a reset is in canonical form (R512). -/
theorem State.resetMem_wf (s : State) (hw : s.mem.wf = true) : s.resetMem.mem.wf = true :=
  (State.pokePairs_writes _ _).wf (keepPersist_wf hw)

/-- A reset writes the memory and the registers only; in particular the configuration stays. -/
@[simp] theorem State.resetCore_cfg (s : State) : s.resetCore.cfg = s.cfg :=
  (State.pokePairs_writes (s.withMem (keepPersist s.mem)) _).cfg

@[simp] theorem State.resetCore_dec (s : State) : s.resetCore.dec = Decoder.atReset := rfl

@[simp] theorem State.resetCore_vm (s : State) : s.resetCore.vm = Controller.atReset := rfl

@[simp] theorem State.resetCore_mem (s : State) : s.resetCore.mem = s.resetMem.mem := rfl

/-! ## Sample step -/

/-- A sample step writes the channels and appends one sample to the port (R440, R47), and nothing else. -/
theorem execSample_writes {s t : State} (h : execSample s = .next t) :
    ∃ v, t = { s with channels := t.channels, sampleOut := s.sampleOut ++ [v] } := by
  cases h
  exact ⟨_, rfl⟩

/-! ## Sequencing -/

@[simp] theorem andThen_next (s : State) (f : State → Out) : andThen (.next s) f = f s := rfl

/-- An outcome chain that ends in a next state went through one. -/
theorem andThen_eq_next {o : Out} {f : State → Out} {t : State} (h : andThen o f = .next t) :
    ∃ s, o = .next s ∧ f s = .next t := by
  cases o with
  | next s => exact ⟨s, rfl, h⟩
  | fault r => exact absurd h (by simp [andThen])
  | refused r => exact absurd h (by simp [andThen])

end Sys2Proof.Machine
end

