-- ==== Sys2Proof/Laws/PerInstr.lean ====
section
/-! SUPPORT. Facts about every instruction as syntax, one lemma per constructor. -/

namespace Sys2Proof.Laws.OpcodeRow

/-- The instruction is a command exactly when it has an opcode, and the opcode map then gives that opcode as
many operand slots as the instruction has operands; only commands stand in hook traces (30_encoding.md R101,
60_exceptions.md R489). -/
def Statement (i : Instr) : Prop :=
  (i.isCommand = i.opcode.isSome) ∧
  (∀ op, i.opcode = some op → (opRow op).map OpRow.slots = some i.operands.length) ∧
  (i.inTrace = true → i.isCommand = true)

/-- The shape of every proof below: the opcode is a constant of the constructor. -/
theorem of_opcode {i : Instr} {n : Nat} (hc : i.isCommand = true) (ho : i.opcode = some n)
    (hs : (opRow n).map OpRow.slots = some i.operands.length) : Statement i :=
  ⟨by rw [hc, ho]; rfl, fun op h => by rw [ho] at h; cases h; exact hs, fun _ => hc⟩

/-- The same for a stream token, which has none. -/
theorem of_token {i : Instr} (hc : i.isCommand = false) (ho : i.opcode = none) (ht : i.inTrace = false) :
    Statement i :=
  ⟨by rw [hc, ho]; rfl, fun op h => by rw [ho] at h; exact absurd h (by simp), fun h => by rw [ht] at h; exact absurd h (by simp)⟩

theorem read8 : ∀ addr, Statement (.read8 addr) := fun _ => of_opcode rfl rfl rfl
theorem read16 : ∀ addr, Statement (.read16 addr) := fun _ => of_opcode rfl rfl rfl
theorem read32 : ∀ addr, Statement (.read32 addr) := fun _ => of_opcode rfl rfl rfl
theorem write8 : ∀ addr v, Statement (.write8 addr v) := fun _ _ => of_opcode rfl rfl rfl
theorem write16 : ∀ addr v, Statement (.write16 addr v) := fun _ _ => of_opcode rfl rfl rfl
theorem write32 : ∀ addr v, Statement (.write32 addr v) := fun _ _ => of_opcode rfl rfl rfl
theorem bulkCopy : ∀ dst src len, Statement (.bulkCopy dst src len) := fun _ _ _ => of_opcode rfl rfl rfl
theorem bulkFill : ∀ dst value len, Statement (.bulkFill dst value len) := fun _ _ _ => of_opcode rfl rfl rfl
theorem reset : Statement .reset := of_opcode rfl rfl rfl
theorem loadCart : ∀ src, Statement (.loadCart src) := fun _ => of_opcode rfl rfl rfl
theorem run : Statement .run := of_opcode rfl rfl rfl
theorem pause : Statement .pause := of_opcode rfl rfl rfl
theorem resume : Statement .resume := of_opcode rfl rfl rfl
theorem stop : Statement .stop := of_opcode rfl rfl rfl
theorem unload : Statement .unload := of_opcode rfl rfl rfl
theorem step : Statement .step := of_opcode rfl rfl rfl
theorem queryError : Statement .queryError := of_opcode rfl rfl rfl
theorem queryFps : Statement .queryFps := of_opcode rfl rfl rfl
theorem queryFrame : Statement .queryFrame := of_opcode rfl rfl rfl
theorem setClip : ∀ x y w h, Statement (.setClip x y w h) := fun _ _ _ _ => of_opcode rfl rfl rfl
theorem setCamera : ∀ x y, Statement (.setCamera x y) := fun _ _ => of_opcode rfl rfl rfl
theorem setColor : ∀ c, Statement (.setColor c) := fun _ => of_opcode rfl rfl rfl
theorem setPalette : ∀ c0 c1 p, Statement (.setPalette c0 c1 p) := fun _ _ _ => of_opcode rfl rfl rfl
theorem setTransparent : ∀ c t, Statement (.setTransparent c t) := fun _ _ => of_opcode rfl rfl rfl
theorem setFillPattern : ∀ pattern trans, Statement (.setFillPattern pattern trans) := fun _ _ => of_opcode rfl rfl rfl
theorem setCursor : ∀ x y c, Statement (.setCursor x y c) := fun _ _ _ => of_opcode rfl rfl rfl
theorem clear : ∀ c, Statement (.clear c) := fun _ => of_opcode rfl rfl rfl
theorem setPixel : ∀ x y c, Statement (.setPixel x y c) := fun _ _ _ => of_opcode rfl rfl rfl
theorem getPixel : ∀ x y, Statement (.getPixel x y) := fun _ _ => of_opcode rfl rfl rfl
theorem line : ∀ x0 y0 x1 y1 c, Statement (.line x0 y0 x1 y1 c) := fun _ _ _ _ _ => of_opcode rfl rfl rfl
theorem rect : ∀ x0 y0 x1 y1 c, Statement (.rect x0 y0 x1 y1 c) := fun _ _ _ _ _ => of_opcode rfl rfl rfl
theorem rectFill : ∀ x0 y0 x1 y1 c, Statement (.rectFill x0 y0 x1 y1 c) := fun _ _ _ _ _ => of_opcode rfl rfl rfl
theorem circle : ∀ x y r c, Statement (.circle x y r c) := fun _ _ _ _ => of_opcode rfl rfl rfl
theorem circleFill : ∀ x y r c, Statement (.circleFill x y r c) := fun _ _ _ _ => of_opcode rfl rfl rfl
theorem ellipse : ∀ x0 y0 x1 y1 c, Statement (.ellipse x0 y0 x1 y1 c) := fun _ _ _ _ _ => of_opcode rfl rfl rfl
theorem ellipseFill : ∀ x0 y0 x1 y1 c, Statement (.ellipseFill x0 y0 x1 y1 c) := fun _ _ _ _ _ => of_opcode rfl rfl rfl
theorem sprite : ∀ n x y w h flipX flipY, Statement (.sprite n x y w h flipX flipY) := fun _ _ _ _ _ _ _ => of_opcode rfl rfl rfl
theorem spriteScaled : ∀ sx sy sw sh dx dy dw dh flipX flipY, Statement (.spriteScaled sx sy sw sh dx dy dw dh flipX flipY) := fun _ _ _ _ _ _ _ _ _ _ => of_opcode rfl rfl rfl
theorem tileMap : ∀ cx0 cy0 sx sy cw ch layers, Statement (.tileMap cx0 cy0 sx sy cw ch layers) := fun _ _ _ _ _ _ _ => of_opcode rfl rfl rfl
theorem text : ∀ str x y c, Statement (.text str x y c) := fun _ _ _ _ => of_opcode rfl rfl rfl
theorem sfx : ∀ n channel offset, Statement (.sfx n channel offset) := fun _ _ _ => of_opcode rfl rfl rfl
theorem music : ∀ n, Statement (.music n) := fun _ => of_opcode rfl rfl rfl
theorem setMasterVolume : ∀ v, Statement (.setMasterVolume v) := fun _ => of_opcode rfl rfl rfl
theorem sample : Statement .sample := of_opcode rfl rfl rfl
theorem dfStored : ∀ final, Statement (.dfStored final) := fun _ => of_token rfl rfl rfl
theorem dfFixed : ∀ final, Statement (.dfFixed final) := fun _ => of_token rfl rfl rfl
theorem dfDynamic : ∀ final, Statement (.dfDynamic final) := fun _ => of_token rfl rfl rfl
theorem dfReserved : ∀ final, Statement (.dfReserved final) := fun _ => of_token rfl rfl rfl
theorem dfLit : ∀ sym, Statement (.dfLit sym) := fun _ => of_token rfl rfl rfl
theorem dfEob : Statement .dfEob := of_token rfl rfl rfl
theorem dfLen : ∀ lsym lextra dsym dextra, Statement (.dfLen lsym lextra dsym dextra) := fun _ _ _ _ => of_token rfl rfl rfl
theorem fltNone : Statement .fltNone := of_token rfl rfl rfl
theorem fltSub : Statement .fltSub := of_token rfl rfl rfl
theorem fltUp : Statement .fltUp := of_token rfl rfl rfl
theorem fltAvg : Statement .fltAvg := of_token rfl rfl rfl
theorem fltPaeth : Statement .fltPaeth := of_token rfl rfl rfl
theorem nfLit : ∀ index, Statement (.nfLit index) := fun _ => of_token rfl rfl rfl
theorem nfRef15 : ∀ field length, Statement (.nfRef15 field length) := fun _ _ => of_token rfl rfl rfl
theorem nfRef10 : ∀ field length, Statement (.nfRef10 field length) := fun _ _ => of_token rfl rfl rfl
theorem nfRef5 : ∀ field length, Statement (.nfRef5 field length) := fun _ _ => of_token rfl rfl rfl
theorem nfRaw : Statement .nfRaw := of_token rfl rfl rfl
theorem lgEsc : ∀ b1, Statement (.lgEsc b1) := fun _ => of_token rfl rfl rfl
theorem lgSym : ∀ b0, Statement (.lgSym b0) := fun _ => of_token rfl rfl rfl
theorem lgRef : ∀ b0 b1, Statement (.lgRef b0 b1) := fun _ _ => of_token rfl rfl rfl
theorem rawScript : Statement .rawScript := of_token rfl rfl rfl

end Sys2Proof.Laws.OpcodeRow
end

