-- ==== Sys2Proof/Laws/Streams.lean ====
section
/-! SUPPORT. What the shared operations of the decoder streams do: the bit reader, the copies, the scanline
reconstruction and the move-to-front table. -/

namespace Sys2Proof.Machine

/-- The bit reader advances by exactly the bits it read, inside the stream (30_encoding.md R114, R130). -/
theorem getBits_pos {b : Bytes} {pos n v pos' : Nat} (h : getBits b pos n = some (v, pos')) :
    pos' = pos + n ∧ v < 2 ^ n := by
  induction n generalizing pos v pos' with
  | zero => simp [getBits] at h; omega
  | succ n ih =>
    simp only [getBits] at h
    split at h
    · exact absurd h (by simp)
    · split at h
      · exact absurd h (by simp)
      · rename_i bit _ _ w p hw
        simp only [Option.some.injEq, Prod.mk.injEq] at h
        obtain ⟨h1, h2⟩ := ih hw
        have hb : bit.toNat ≤ 1 := by cases bit <;> simp
        rw [Nat.pow_succ]
        omega

/-- A copy appends exactly its length (42_inflate.md R230). -/
theorem copyBack_length (dist n : Nat) (out : Bytes) : (copyBack dist n out).length = out.length + n := by
  induction n generalizing out with
  | zero => rfl
  | succ n ih => rw [copyBack, ih]; simp; omega

/-- A copy leaves what was produced before as it is. -/
theorem copyBack_prefix (dist n : Nat) (out : Bytes) : out <+: copyBack dist n out := by
  induction n generalizing out with
  | zero => exact List.prefix_refl out
  | succ n ih => exact (List.prefix_append _ _).trans (ih _)

/-- A reconstructed line has as many bytes as its filtered form (43_png_unfilter_extract.md R251). -/
theorem filterLine_length (pred : Byte → Byte → Byte → Byte) (above line xs : Bytes) :
    (filterLine pred above line xs).length = line.length + xs.length := by
  induction xs generalizing line with
  | nil => rfl
  | cons x xs ih =>
    rw [filterLine, ih]; simp; omega

/-- Promotion permutes the move-to-front table (44_code_decompress.md R276). -/
theorem promote_perm (mtf : Bytes) (i : Nat) (h : i < mtf.length) : (promote mtf i).Perm mtf := by
  unfold promote
  rw [List.getD_eq_getElem _ _ h]
  exact List.getElem_cons_eraseIdx_perm h

/-- The bytes of a raw script begin its region, hold no zero and fit `CODE_CAP` (44_code_decompress.md R300). -/
theorem rawScriptBytes_spec (cap : Nat) (S : Bytes) :
    rawScriptBytes cap S <+: S ∧ (∀ b ∈ rawScriptBytes cap S, b ≠ 0) ∧ (rawScriptBytes cap S).length ≤ cap := by
  refine ⟨(List.take_prefix _ _).trans (List.takeWhile_prefix _), fun b hb => ?_, List.length_take_le _ _⟩
  simpa using List.mem_takeWhile_imp (List.mem_of_mem_take hb)

end Sys2Proof.Machine
end

