-- ==== Sys2Proof/Tests/Slice0.lean ====
section
/-! SUPPORT. Tests: ill-formed terms the checks refuse, words written out from the spec's encodings, single
steps with results from 95_test_vectors.md (V) or the rules' examples (R), and for each statement with
hypotheses a state and operands that meet them. -/

namespace Sys2Proof.Tests

set_option Elab.async false

open Sys2Proof.Machine

/-! ## Helpers -/

/-- The outcome is a next state with this property. -/
def ran (o : Out) (p : State → Bool) : Bool :=
  match o with
  | .next t => p t
  | .fault _ => false
  | .refused _ => false

/-- The command these words and this data decode to. -/
def cmd (words : List Word) (data : DataIn) : Option Instr := okOption (decodeCommand ⟨words, data⟩)

/-- The token a decoder read, with the position behind it. -/
def tok (r : Except Reject (Instr × Nat)) : Option (Instr × Nat) := okOption r

/-- The reset state with these bytes stored from an address on. -/
def withBytes (a : Nat) (bs : Bytes) : State := State.reset.pokeAll a bs

/-- The reset state with the font of R408's example. -/
def withFont : State := { State.reset with cfg := { Config.default with font := .reference } }

/-- The reset state with a decoder stage running. -/
def decoding (stage : Stage) (f : Decoder → Decoder) : State :=
  { State.reset with dec := { f Decoder.atReset with stage := stage } }

/-- The reset state with controller registers changed and these hook answers given. -/
def controlled (f : Controller → Controller) (answers : List HookAnswer) : State :=
  { State.reset with vm := f Controller.atReset, hookAnswers := answers }

/-- A hook that succeeds, one that fails with a message, one that fails without. -/
def good : HookAnswer := ⟨true, [], []⟩
def failed : HookAnswer := ⟨false, [0x65], []⟩
def silent : HookAnswer := ⟨false, [], []⟩

/-! ## WellFormed: an ill-formed term for each check -/

theorem test_wf_refuses_copy_symbols :
    (Instr.dfLen 256 0 0 0).wf = false ∧ (Instr.dfLen 286 0 0 0).wf = false ∧ (Instr.dfLen 257 1 0 0).wf = false ∧
    (Instr.dfLen 265 2 0 0).wf = false ∧ (Instr.dfLen 257 0 30 0).wf = false ∧ (Instr.dfLen 257 0 3 1).wf = false ∧
    (Instr.dfLen 284 31 29 8191).wf = true := by decide +kernel

theorem test_wf_refuses_short_reference :
    (Instr.nfRef15 0 2).wf = false ∧ (Instr.nfRef10 1 2).wf = false ∧ (Instr.nfRef5 0 0).wf = false ∧
    (Instr.nfRef5 0 3).wf = true := by decide +kernel

theorem test_wf_refuses_raw_run_reference :
    (Instr.nfRef10 0 3).wf = false ∧ (Instr.nfRef10 1023 3).wf = true := by decide +kernel

theorem test_wf_refuses_legacy_bytes :
    (Instr.lgSym 0).wf = false ∧ (Instr.lgSym 0x3C).wf = false ∧ (Instr.lgSym 0x3B).wf = true ∧
    (Instr.lgRef 0x3B 0).wf = false ∧ (Instr.lgRef 0x3C 0).wf = true := by decide +kernel

/-! ## Decoding: every constructor from a word written out -/

/-- R101, V1: opcodes 0x00 to 0x07. -/
theorem test_decode_memory :
    cmd [0x00010000, 0x5F25] .empty = some (.read8 (some 0x5F25)) ∧
    cmd [0x00010001, 0x4301] .empty = some (.read16 (some 0x4301)) ∧
    cmd [0x00010002, 0x7FFC] .empty = some (.read32 (some 0x7FFC)) ∧
    cmd [0x00030003, 0x6000, 0xFFFFFFFF] .empty = some (.write8 (some 0x6000) (some 0xFFFFFFFF)) ∧
    cmd [0x00030004, 0x5F28, 0xFFFFFFFE] .empty = some (.write16 (some 0x5F28) (some 0xFFFFFFFE)) ∧
    cmd [0x00030005, 0x4300, 0x12345678] .empty = some (.write32 (some 0x4300) (some 0x12345678)) ∧
    cmd [0x00070006, 0x6001, 0x6000, 3] .empty = some (.bulkCopy (some 0x6001) (some 0x6000) (some 3)) ∧
    cmd [0x00070007, 0x6000, 0x11, 0x2000] .empty = some (.bulkFill (some 0x6000) (some 0x11) (some 0x2000)) := by
  decide +kernel

/-- R101: opcodes 0x10 to 0x1A. -/
theorem test_decode_controller :
    cmd [0x10] .empty = some .reset ∧ cmd [0x12] .empty = some .run ∧ cmd [0x13] .empty = some .pause ∧
    cmd [0x14] .empty = some .resume ∧ cmd [0x15] .empty = some .stop ∧ cmd [0x16] .empty = some .unload ∧
    cmd [0x17] .empty = some .step ∧ cmd [0x18] .empty = some .queryError ∧ cmd [0x19] .empty = some .queryFps ∧
    cmd [0x1A] .empty = some .queryFrame ∧
    cmd [0x11] (.bytes [0x89, 0x50]) = some (.loadCart (.image [0x89, 0x50] none)) ∧
    cmd [0x11] (.cart .readFailure) = some (.loadCart .readFailure) := by decide +kernel

/-- R101, V1: opcodes 0x20 to 0x26. -/
theorem test_decode_raster_state :
    cmd [0x00000020, 9, 9, 9, 9] .empty = some (.setClip none none none none) ∧
    cmd [0x000F0020, 1, 2, 3, 4] .empty = some (.setClip (some 1) (some 2) (some 3) (some 4)) ∧
    cmd [0x00030021, 0xFFFFFFFE, 5] .empty = some (.setCamera (some 0xFFFFFFFE) (some 5)) ∧
    cmd [0x00010022, 0x8C] .empty = some (.setColor (some 0x8C)) ∧
    cmd [0x00070023, 8, 9, 1] .empty = some (.setPalette (some 8) (some 9) (some 1)) ∧
    cmd [0x00030024, 3, 0] .empty = some (.setTransparent (some 3) (some 0)) ∧
    cmd [0x00030025, 0x33CC, 1] .empty = some (.setFillPattern (some 0x33CC) (some 1)) ∧
    cmd [0x00050026, 4, 9, 7] .empty = some (.setCursor (some 4) none (some 7)) := by decide +kernel

/-- R101, V1: opcodes 0x30 to 0x39. -/
theorem test_decode_primitives :
    cmd [0x00010030, 1] .empty = some (.clear (some 1)) ∧
    cmd [0x00070031, 3, 0, 9] .empty = some (.setPixel (some 3) (some 0) (some 9)) ∧
    cmd [0x00030032, 3, 4] .empty = some (.getPixel (some 3) (some 4)) ∧
    cmd [0x00130033, 0xA, 0xA, 1, 2, 8] .empty = some (.line (some 0xA) (some 0xA) none none (some 8)) ∧
    cmd [0x001F0034, 1, 2, 3, 4, 5] .empty = some (.rect (some 1) (some 2) (some 3) (some 4) (some 5)) ∧
    cmd [0x000F0035, 1, 2, 3, 4, 5] .empty = some (.rectFill (some 1) (some 2) (some 3) (some 4) none) ∧
    cmd [0x00030036, 1, 2, 3, 4] .empty = some (.circle (some 1) (some 2) none none) ∧
    cmd [0x000F0037, 1, 2, 3, 4] .empty = some (.circleFill (some 1) (some 2) (some 3) (some 4)) ∧
    cmd [0x001F0038, 1, 1, 12, 6, 7] .empty = some (.ellipse (some 1) (some 1) (some 12) (some 6) (some 7)) ∧
    cmd [0x000F0039, 1, 1, 12, 6, 7] .empty = some (.ellipseFill (some 1) (some 1) (some 12) (some 6) none) := by
  decide +kernel

/-- R101, V1: opcodes 0x40 to 0x43. -/
theorem test_decode_blitters :
    cmd [0x00070040, 0, 0xA, 0xB, 0, 0, 0, 0] .empty =
      some (.sprite (some 0) (some 0xA) (some 0xB) none none none none) ∧
    cmd [0x03FF0041, 1, 2, 3, 4, 5, 6, 7, 8, 9, 10] .empty =
      some (.spriteScaled (some 1) (some 2) (some 3) (some 4) (some 5) (some 6) (some 7) (some 8) (some 9)
        (some 10)) ∧
    cmd [0x007F0042, 1, 2, 3, 4, 5, 6, 7] .empty =
      some (.tileMap (some 1) (some 2) (some 3) (some 4) (some 5) (some 6) (some 7)) ∧
    cmd [0x00070043, 2, 3, 7] (.bytes [0x41, 0x0A, 0x42]) =
      some (.text [0x41, 0x0A, 0x42] (some 2) (some 3) (some 7)) := by decide +kernel

/-- R101, V1: opcodes 0x50 to 0x53. -/
theorem test_decode_synth :
    cmd [0x00030050, 0xFFFFFFFF, 2, 0] .empty = some (.sfx (some 0xFFFFFFFF) (some 2) none) ∧
    cmd [0x00010051, 5] .empty = some (.music (some 5)) ∧
    cmd [0x00010052, 200] .empty = some (.setMasterVolume (some 200)) ∧
    cmd [0x53] .empty = some .sample := by decide +kernel

/-- Why these words and no data are no command. -/
def whyNot (words : List Word) : Option Reject :=
  match decodeCommand ⟨words, .empty⟩ with
  | .error e => some e
  | .ok _ => none

/-- V3, R100: reserved encodings and incomplete commands are refused by name. -/
theorem test_decode_refuses :
    whyNot [0x08] = some .reservedOpcode ∧ whyNot [0x0130] = some .reservedHeaderBits ∧
    whyNot [0x00030030, 1] = some .reservedPresence ∧ whyNot [0x00030003, 1] = some .missingWords := by
  decide +kernel

/-- R112: BFINAL, then BTYPE low bit first. -/
theorem test_decode_block_headers :
    tok (decodeBlockHeader [0x01] 0) = some (.dfStored true, 3) ∧
    tok (decodeBlockHeader [0x02] 0) = some (.dfFixed false, 3) ∧
    tok (decodeBlockHeader [0x05] 0) = some (.dfDynamic true, 3) ∧
    tok (decodeBlockHeader [0x06] 0) = some (.dfReserved false, 3) := by decide +kernel

/-- R116, R117, R121, R122: literal 0x41 is 01110001, end of block 0000000, symbol 257 with distance 0
0000001 00000; V14's copy is symbol 265 (0001001) with extra 1 and distance symbol 4 (00100) with extra 1. -/
theorem test_decode_block_tokens :
    tok (decodeBlockToken fixedLencode fixedDistcode [0x8E] 0) = some (.dfLit 0x41, 8) ∧
    tok (decodeBlockToken fixedLencode fixedDistcode [0x00] 0) = some (.dfEob, 7) ∧
    tok (decodeBlockToken fixedLencode fixedDistcode [0x40, 0x00] 0) = some (.dfLen 257 0 0 0, 12) ∧
    tok (decodeBlockToken fixedLencode fixedDistcode [0xC8, 0x24] 0) = some (.dfLen 265 1 4 1, 14) := by
  decide +kernel

/-- R124: the five filter bytes, and the first illegal one. -/
theorem test_decode_filters :
    okOption (decodeFilter 0) = some .fltNone ∧ okOption (decodeFilter 1) = some .fltSub ∧
    okOption (decodeFilter 2) = some .fltUp ∧ okOption (decodeFilter 3) = some .fltAvg ∧
    okOption (decodeFilter 4) = some .fltPaeth ∧ okOption (decodeFilter 5) = none := by decide +kernel

/-- R131 to R134: index 20 is 1 10 00100; offset 3 and length 6 at width 5 is 0 11 01000 110 (V30);
width 10, field 1, length 3 is 0 10 1000000000 000; width 15, field 1, length 3 likewise with 0 0; a raw
run 0 10 0000000000. -/
theorem test_decode_new_format :
    tok (decodeNewFormat [0x23] 0) = some (.nfLit 20, 8) ∧
    tok (decodeNewFormat [0x16, 0x03] 0) = some (.nfRef5 2 6, 11) ∧
    tok (decodeNewFormat [0x0A, 0x00] 0) = some (.nfRef10 1 3, 16) ∧
    tok (decodeNewFormat [0x04, 0x00, 0x00] 0) = some (.nfRef15 1 3, 20) ∧
    tok (decodeNewFormat [0x02, 0x00] 0) = some (.nfRaw, 13) := by decide +kernel

/-- R135, R138: the legacy codes, and a region that is raw script. -/
theorem test_decode_legacy_and_raw :
    tok (decodeLegacy [0x00, 0x57] 0) = some (.lgEsc 0x57, 2) ∧
    tok (decodeLegacy [0x14] 0) = some (.lgSym 0x14, 1) ∧
    tok (decodeLegacy [0x3C, 0x25] 0) = some (.lgRef 0x3C 0x25, 2) ∧
    scriptStage [0x63, 0x6C, 0x73] = .rawScript ∧
    fetch (decoding .rawScript fun d => { d with script := [0x63] }) = .token .rawScript 0 := by decide +kernel

/-! ## The host's questions -/

theorem test_table_words :
    decodeTableWord 32 0x53 = some .sample ∧ decodeTableWord 32 0x41 =
      some (.spriteScaled none none none none none none none none none none) ∧
    decodeTableWord 8 3 = some .fltAvg ∧ decodeTableWord 8 0x80 = some (.nfLit 0) := by decide +kernel

theorem test_fetch_word_runs_command :
    ran (step (State.reset.withFetchWord 32 0x12)) (fun t => t.vm.state = .running) = true := by decide +kernel

theorem test_fetch_word_runs_filter :
    ran (step (State.reset.withFetchWord 8 1)) (fun t => t.dec.pix = [0, 0, 0, 0]) = true := by decide +kernel

/-! ## Single steps -/

/-- V4, V5. -/
theorem test_reads :
    ran (exec (.read16 (some 0x5F22)) State.reset) (fun t => t.result = some 0x8080) = true ∧
    ran (exec (.read32 (some 0x5F54)) State.reset) (fun t => t.result = some 0x80206000) = true ∧
    ran (exec (.read8 (some 0xFFFFFFFF)) State.reset) (fun t => t.result = some 0) = true := by decide +kernel

/-- V6, V5: byte order; a partly in-range write stores nothing. -/
theorem test_writes :
    ran (exec (.write32 (some 0x4300) (some 0x12345678)) State.reset)
      (fun t => t.mem.getBlock 0x4300 4 = [0x78, 0x56, 0x34, 0x12]) = true ∧
    ran (exec (.write16 (some 0x7FFF) (some 0x1234)) State.reset) (fun t => t.mem = State.reset.mem) = true := by
  decide +kernel

/-- V8: an overlapping move. -/
theorem test_bulk_copy :
    ran (exec (.bulkCopy (some 0x6001) (some 0x6000) (some 3)) (withBytes 0x6000 [1, 2, 3, 4]))
      (fun t => t.mem.getBlock 0x6000 4 = [1, 1, 2, 3]) = true := by decide +kernel

/-- V9: a clamped fill. -/
theorem test_bulk_fill :
    ran (exec (.bulkFill (some 0x7FF0) (some 0xAA) (some 0x100)) State.reset)
      (fun t => t.peek 0x7FEF = 0 ∧ t.peek 0x7FF0 = 0xAA ∧ t.peek 0x7FFF = 0xAA) = true := by decide +kernel

/-- R513: the save slots survive `reset`. -/
theorem test_reset_keeps_slots :
    ran (exec .reset (withBytes 0x5DFF [7, 8])) (fun t => t.peek 0x5DFF = 0 ∧ t.peek 0x5E00 = 8) = true := by
  decide +kernel

/-- V22, last row: an empty image. -/
theorem test_load_empty_image :
    ran (exec (.loadCart (.image [] none)) State.reset)
      (fun t => t.result = some 0xFFFFFFFF ∧ t.errCause = .badContainer) = true := by decide +kernel

/-- R488: a failing draw hook with a message aborts; with an empty message it does not. -/
theorem test_step_hooks :
    ran (exec .step (controlled (fun v => { v with state := .running, hasDraw := true }) [failed]))
      (fun t => t.vm.state = .error ∧ t.vm.frame = 0) = true ∧
    ran (exec .step (controlled (fun v => { v with state := .running, hasDraw := true }) [silent]))
      (fun t => t.vm.state = .running ∧ t.vm.frame = 1) = true := by decide +kernel

/-- R362's example. -/
theorem test_set_pixel :
    ran (exec (.setPixel (some 3) (some 0) (some 9)) State.reset)
      (fun t => t.peek 0x6001 = 0x90 ∧ t.pen = 9) = true := by decide +kernel

/-- R371's example: the clip rectangle cuts a fill to one byte. -/
theorem test_rect_fill_clipped :
    ran (exec (.rectFill (some 0) (some 0) (some 3) (some 3) (some 1)) (withBytes 0x5F22 [2, 1]))
      (fun t => t.peek 0x6000 = 0x11 ∧ t.peek 0x6001 = 0 ∧ t.peek 0x6040 = 0) = true := by decide +kernel

/-- R378's example, rows 1 and 2. -/
theorem test_ellipse_rows :
    (ellipseRows 1 1 12 6).filter (fun q => q.2.2 = 2) = [(3, 10, 2), (2, 11, 2)] ∨
    ((2, 11, 2) ∈ ellipseRows 1 1 12 6 ∧ (3, 10, 2) ∈ ellipseRows 1 1 12 6 ∧ (4, 9, 1) ∈ ellipseRows 1 1 12 6) := by
  decide +kernel

/-- R408: the stub font draws three columns; the cursor goes one line down. -/
theorem test_text :
    ran (exec (.text [0x41] (some 0) (some 0) (some 7)) withFont)
      (fun t => t.peek 0x6000 = 0x77 ∧ t.peek 0x6001 = 0x07 ∧ t.cursorX = 0 ∧ t.cursorY = 6) = true := by
  decide +kernel

/-- R394: a blit of one sheet pixel; colour 0 is transparent. -/
theorem test_sprite :
    ran (exec (.sprite (some 0) (some 0) (some 0) none none none none) (withBytes 0 [0x05, 0x70]))
      (fun t => t.peek 0x6000 = 0x05 ∧ t.peek 0x6001 = 0x70) = true := by decide +kernel

/-- R430: a note word 0x0E18 (pitch 24, volume 7) at speed 1. -/
theorem test_sfx :
    ran (exec (.sfx (some 0) none none) (withBytes 0x3200 [0x18, 0x0E]))
      (fun t => t.channels.ch0.freq = 262 ∧ t.channels.ch0.vol = 7 ∧ t.channels.ch0.samplesPerTick = 183) = true := by
  decide +kernel

/-- R441 (f): idle channels give the sample 0. -/
theorem test_sample_idle :
    ran (exec .sample State.reset) (fun t => t.sampleOut = [0] ∧ t.channels = State.reset.channels) = true := by
  decide +kernel

/-- R47, R91: two sample steps inside a hook deliver two samples. -/
theorem test_sample_in_hook :
    ran (runTrace [⟨.sample, rfl⟩, ⟨.sample, rfl⟩] State.reset) (fun t => t.sampleOut = [0, 0]) = true := by
  decide +kernel

/-- V16: a distance before the start of the output. -/
theorem test_copy_too_far :
    ran (exec (.dfLen 257 0 1 0) (decoding .blockTokens fun d => { d with raw := [0x61], imgW := 1, imgH := 1 }))
      (fun t => t.errCause = .badDeflate ∧ t.dec.raw = [0x61]) = true := by decide +kernel

/-- V10: a stored block whose NLEN is wrong fails and writes nothing. -/
theorem test_stored_mismatch :
    ran (exec (.dfStored true) (decoding .blockHeader fun d =>
        { d with idat := [0x78, 0x01, 0x01, 0x03, 0x00, 0xFC, 0xFE, 0x41, 0x42, 0x43], inPos := 3, imgW := 1, imgH := 1 }))
      (fun t => t.errCause = .badDeflate ∧ t.dec.raw = []) = true := by decide +kernel

/-- R300's example: `cls()` is five bytes, and the cursor has moved over them. -/
theorem test_raw_script :
    ran (exec .rawScript (decoding .rawScript fun d => { d with script := [0x63, 0x6C, 0x73, 0x28, 0x29, 0x00, 0x41] }))
      (fun t => t.dec.codeOut = [0x63, 0x6C, 0x73, 0x28, 0x29] ∧ t.dec.inPos = 5) = true := by decide +kernel

/-- V23, line 3: Paeth. -/
theorem test_paeth : paeth 0 9 0 = 9 ∧ paeth 0x0A 0x11 0x09 = 0x11 ∧ paeth 10 20 15 = 15 := by decide +kernel

/-- V31 (a): a copy is cut at the limit. -/
theorem test_copy_cut :
    ran (exec (.nfRef5 2 6) (decoding .newFormat fun d => { d with codeOut := [0x61, 0x62, 0x62], limit := 5 }))
      (fun t => t.dec.codeOut = [0x61, 0x62, 0x62, 0x61, 0x62]) = true := by decide +kernel

/-- V32: `3C 25` copies four bytes from five back. -/
theorem test_legacy_reference :
    ran (exec (.lgRef 0x3C 0x25)
        (decoding .legacy fun d => { d with codeOut := [0x6C, 0x6C, 0x6F, 0x20, 0x57], limit := 99 }))
      (fun t => t.dec.codeOut = [0x6C, 0x6C, 0x6F, 0x20, 0x57, 0x6C, 0x6C, 0x6F, 0x20]) = true := by decide +kernel

/-! ## Witnesses: states and operands that meet the statements' hypotheses -/

/-- The canonical form and the legal layout, which most statements ask for, and the legal configuration. -/
theorem witness_legal_state :
    State.reset.mem.wf = true ∧ State.reset.cfg.layout.ok = true ∧ State.reset.cfg.ok = true := by decide +kernel

theorem witness_ReadValue :
    accessOk 0x7FFF 1 ∧ accessOk 0x7FFE 2 ∧ accessOk 0x7FFC 4 ∧ ¬ accessOk 0x8000 1 ∧ ¬ accessOk 0x7FFF 2 ∧
    ¬ accessOk 0x7FFD 4 ∧ ¬ accessOk 0xFFFFFFFF 1 := by decide +kernel

theorem witness_WriteValue :
    State.reset.mem.wf = true ∧ accessOk 0 4 ∧ accessOk 0x7FFF 1 ∧ ¬ accessOk 0x7FFF 2 := by decide +kernel

theorem witness_BulkCopyMoves :
    State.reset.mem.wf = true ∧
    (0 < (1 : Word).toInt ∧ 0 ≤ (0x7FFF : Word).toInt ∧ (0x7FFF : Word).toInt < 0x8000 ∧ 0 ≤ (0 : Word).toInt) ∧
    (0 : Word).toInt ≤ 0 ∧ (0x8000 : Word).toInt ≥ 0x8000 ∧ (0xFFFFFFFF : Word).toInt < 0 := by decide +kernel

theorem witness_BulkFillStores :
    State.reset.mem.wf = true ∧ 0 < (0x100 : Word).toInt ∧ 0 ≤ (0x7FFF : Word).toInt ∧
    (0x7FFF : Word).toInt < 0x8000 ∧ (0x8000 : Word).toInt ≥ 0x8000 := by decide +kernel

theorem witness_MissingOperandIgnored :
    (Instr.setPixel (some 3) none (some 9)).lacksRequired = true ∧ (Instr.read8 none).lacksRequired = true := by
  decide +kernel

theorem witness_ResetLeaves :
    State.reset.mem.wf = true ∧ State.reset.cfg.layout = Layout.default := by decide +kernel

theorem witness_PauseResumeToggle :
    (controlled (fun v => { v with state := .running }) []).vm.state = .running ∧
    (controlled (fun v => { v with state := .paused }) []).vm.state = .paused ∧
    State.reset.vm.state ≠ .running ∧ State.reset.vm.state ≠ .paused := by decide +kernel

theorem witness_RunCallsInit :
    let s := controlled (fun v => { v with hasInit := true }) [good]
    let u := controlled (fun v => { v with hasInit := true, state := .paused }) [failed]
    (s.vm.state = .stopped ∧ s.vm.hasInit = true ∧ (s.nextHookAnswer .init).ok = true) ∧
    (u.vm.state = .paused ∧ u.vm.hasInit = true ∧ (u.nextHookAnswer .init).ok = false) ∧
    (State.reset.vm.state = .stopped ∧ State.reset.vm.hasInit = false) ∧
    (controlled (fun v => { v with state := .error }) []).vm.state = .error := by decide +kernel

theorem witness_StepWithoutHooks :
    let s := controlled (fun v => { v with state := .running }) []
    (s.vm.state = .running ∧ s.vm.hasUpdate60 = false ∧ s.vm.hasUpdate = false ∧ s.vm.hasDraw = false) ∧
    State.reset.vm.state ≠ .running := by decide +kernel

theorem witness_StepCallsHooks :
    let s := controlled (fun v => { v with state := .running, hasUpdate60 := true, hasDraw := true }) [silent, good]
    let u := controlled (fun v => { v with state := .running, hasUpdate := true }) [failed]
    let d := controlled (fun v => { v with state := .running, hasDraw := true }) [good]
    (s.vm.state = .running ∧ s.vm.hasUpdate60 = true ∧ (s.nextHookAnswer .update60).msg = [] ∧
      s.vm.hasDraw = true) ∧
    (u.vm.state = .running ∧ u.vm.hasUpdate60 = false ∧ u.vm.hasUpdate = true ∧
      (u.nextHookAnswer .update).ok = false ∧ (u.nextHookAnswer .update).msg ≠ []) ∧
    (d.vm.state = .running ∧ d.vm.hasUpdate60 = false ∧ d.vm.hasUpdate = false ∧ d.vm.hasDraw = true ∧
      (d.nextHookAnswer .draw).ok = true) := by decide +kernel

theorem witness_LoadRefusedEarly :
    ([0x89] : Bytes).take 8 ≠ [0x89, 0x50, 0x4E, 0x47, 0x0D, 0x0A, 0x1A, 0x0A] ∧
    ([0x89] : Bytes).take 16 ≠
      [0x70, 0x69, 0x63, 0x6F, 0x2D, 0x38, 0x20, 0x63, 0x61, 0x72, 0x74, 0x72, 0x69, 0x64, 0x67, 0x65] := by
  decide +kernel

/-- A state in which the script engine issues no command at the load. -/
def quiet : State := { State.reset with loadAnswers := [⟨true, [], [], false, false, false, true⟩] }

theorem witness_LoadIsSafe :
    quiet.mem.wf = true ∧ quiet.cfg.ok = true ∧ ∃ a rest, quiet.loadAnswers = a :: rest ∧ a.trace = [] :=
  ⟨by decide +kernel, by decide +kernel, _, _, rfl, rfl⟩

theorem witness_LoadsTextScript :
    quiet.mem.wf = true ∧ quiet.cfg.ok = true ∧ quiet.cfg.textTags = TextTags.default ∧
    quiet.loadAnswers = [⟨true, [], [], false, false, false, true⟩] ∧ ([0x78] : Bytes) ≠ [] ∧
    (0x0A : Byte) ∉ ([0x78] : Bytes) ∧ ([0x78] : Bytes).getLast? ≠ some 0x0D ∧
    ([0x78] : Bytes).take 2 ≠ [0x5F, 0x5F] ∧ ([0x78] : Bytes).length ≤ quiet.cfg.codeCap := by decide +kernel

/-- R310, R480: a text cart with the script `x`. -/
theorem test_load_text :
    ran (exec (.loadCart (.image (textHeader ++ [0x0A] ++ TextTags.default.lua ++ [0x0A, 0x78]) none)) quiet)
      (fun t => t.result = some 1 ∧ t.dec.codeOut = [0x78] ∧ t.vm.hasDraw = true ∧ t.cart.valid = true) = true := by
  decide +kernel

/-- V22: a load that fails leaves an invalid cart. -/
theorem witness_LoadIsSafe_failure :
    ran (exec (.loadCart .readFailure) quiet) (fun t => t.cart.valid = false ∧ t.peek 0x5F25 = 6) = true := by
  decide +kernel

theorem witness_SetClipStores :
    State.reset.mem.wf = true ∧ State.reset.cfg.layout.ok = true ∧ (some 1 : Operand) = some 1 ∧
    (none : Operand) = none := by decide +kernel

theorem witness_SetCameraFillStore :
    State.reset.mem.wf = true ∧ State.reset.cfg.layout.ok = true ∧ (∃ w : Word, (some 1 : Operand) = some w ∧ w ≠ 0) :=
  ⟨by decide +kernel, by decide +kernel, 1, rfl, by decide⟩

theorem witness_SetColorCursorStore :
    State.reset.mem.wf = true ∧ State.reset.cfg.layout.ok = true ∧ (some 0x8C : Operand) = some 0x8C := by
  decide +kernel

theorem witness_SetPaletteStores :
    State.reset.mem.wf = true ∧ State.reset.cfg.layout.ok = true ∧ (2 : Word) ≠ 0 ∧ (2 : Word) ≠ 1 ∧
    (some 1 : Operand).isSome ≠ (none : Operand).isSome := by decide +kernel

theorem witness_SetTransparentStores :
    State.reset.mem.wf = true ∧ State.reset.cfg.layout.ok = true ∧ (none : Operand) ≠ some 0 := by decide +kernel

/-- The reset state with fill-pattern bit 15 set and transparent, and a bitmask. -/
def patterned : State := ((State.reset.poke 0x5F32 0x80).poke 0x5F33 1).poke 0x5F5E 0x3C

theorem witness_PixelWriteValue :
    patterned.mem.wf = true ∧ onSheet 0 0 = true ∧ onSheet 127 127 = true ∧
    (patterned.fillp.getLsbD 15 = true ∧ patterned.fillpTrans.getLsbD 0 = true) ∧ patterned.bitmask ≠ 0 ∧
    ((State.reset.clipX0.toNat : Int) ≤ 127 ∧ 127 < (State.reset.clipX1.toNat : Int) ∧
      State.reset.fillp.getLsbD 0 = false ∧ State.reset.bitmask = 0) := by decide +kernel

theorem witness_PlotOrderIrrelevant :
    State.reset.mem.wf = true ∧ State.reset.cfg.layout.ok = true ∧
    ∀ z : Int × Int, z ∈ [((1 : Int), (2 : Int)), (3, 4)] ↔ z ∈ [((3 : Int), (4 : Int)), (1, 2), (3, 4)] :=
  ⟨by decide +kernel, by decide +kernel, fun z => by simp; tauto⟩

theorem witness_ClipInvariant :
    (Instr.circle (some 1) (some 2) none none).draws = true ∧
    (Instr.circle (some 1) (some 2) none none).lacksRequired = false ∧ (withBytes 0x5F22 [2, 1]).mem.wf = true ∧
    (withBytes 0x5F22 [2, 1]).cfg.layout.ok = true ∧ onSheet 2 0 = true ∧
    ¬ ((2 : Int) < (withBytes 0x5F22 [2, 1]).clipX1.toNat) := by decide +kernel

theorem witness_ClearFills :
    State.reset.mem.wf = true ∧ State.reset.cfg.layout.ok = true ∧ inScreen 0x6000 ∧ inScreen 0x7FFF ∧
    ¬ inScreen 0x5FFF := by
  refine ⟨by decide +kernel, by decide +kernel, ?_, ?_, ?_⟩ <;> simp [inScreen]

theorem witness_PixelCommands :
    State.reset.mem.wf = true ∧ State.reset.cfg.layout.ok = true ∧ onSheet 127 127 = true ∧
    State.reset.inClip 127 127 = true ∧ onSheet 128 0 = false := by decide +kernel

theorem witness_PixelPacking :
    State.reset.mem.wf = true ∧ State.reset.cfg.layout.ok = true ∧
    onSheet ((127 : Word).toInt - State.reset.cameraX) ((127 : Word).toInt - State.reset.cameraY) = true ∧
    State.reset.inClip ((127 : Word).toInt - State.reset.cameraX) ((127 : Word).toInt - State.reset.cameraY) = true ∧
    fillBit State.reset.fillp 127 127 = false ∧
    (State.reset.drawPal ((9 : Word).extractLsb' 0 4)).extractLsb' 0 4 = (9 : Word).extractLsb' 0 4 ∧
    State.reset.bitmask = 0 := by decide +kernel

theorem witness_LinePath :
    linePoints 2 5 4 5 = [(2, 5), (3, 5), (4, 5)] ∧ linePoints 1 3 1 2 = [(1, 3), (1, 2)] ∧
    linePoints 7 7 7 7 = [(7, 7)] := by decide +kernel

theorem witness_LineDraws : State.reset.mem.wf = true ∧ State.reset.cfg.layout.ok = true := by decide +kernel

theorem witness_RectanglesDraw : State.reset.mem.wf = true ∧ State.reset.cfg.layout.ok = true := by decide +kernel

theorem witness_CirclesDraw :
    State.reset.mem.wf = true ∧ State.reset.cfg.layout.ok = true ∧ circleSteps 0 = [(0, 0)] := by decide +kernel

theorem witness_EllipsesDraw : State.reset.mem.wf = true ∧ State.reset.cfg.layout.ok = true := by decide +kernel

theorem witness_SpriteBlits :
    State.reset.mem.wf = true ∧ State.reset.cfg.layout.ok = true ∧ (0 ≤ (255 : Word).toInt ∧ (255 : Word).toInt ≤ 255) ∧
    255 < (256 : Word).toInt ∧ (0xFFFFFFFF : Word).toInt < 0 := by decide +kernel

theorem witness_ScaledSpriteBlits :
    State.reset.mem.wf = true ∧ State.reset.cfg.layout.ok = true ∧ 0 < (1 : Word).toInt ∧
    (0xFFFFFFFF : Word).toInt ≠ 0 ∧ (0 : Word).toInt ≤ 0 := by decide +kernel

theorem witness_BlitPixelValue :
    (withBytes 0 [0x05]).mem.wf = true ∧ onSheet 0 0 = true ∧
    ((withBytes 0 [0x05]).drawPal ((withBytes 0 [0x05]).pget gfxBase 0 0)).getLsbD 4 = false ∧
    ((withBytes 0 [0x05]).drawPal ((withBytes 0 [0x05]).pget gfxBase 1 0)).getLsbD 4 = true ∧
    (withBytes 0 [0x05]).bitmask = 0 ∧ patterned.bitmask ≠ 0 := by decide +kernel

theorem witness_TileMapDraws :
    (withBytes 0x2000 [0, 1]).mem.wf = true ∧ (withBytes 0x2000 [0, 1]).cfg.layout.ok = true ∧
    onSheet 8 0 = true ∧ (withBytes 0x2000 [0, 1]).peek 0x2001 ≠ 0 := by decide +kernel

theorem witness_TextDraws : withFont.mem.wf = true ∧ withFont.cfg.layout.ok = true := by decide +kernel

theorem witness_SfxStarts :
    (63 : Word).toInt = (63 : Fin 64).val ∧ (∃ v : Word, (some 31 : Operand) = some v ∧ v.toInt = (31 : Fin 32).val) :=
  ⟨by decide, 31, rfl, by decide⟩

theorem witness_SfxStopsOrIgnores :
    (0xFFFFFFFF : Word).toInt = -1 ∧ (0xFFFFFFFE : Word).toInt < -1 ∧ 63 < (64 : Word).toInt ∧
    (5 : Word).toInt ≠ -1 ∧ 31 < (32 : Word).toInt := by decide +kernel

theorem witness_MusicAndVolume :
    (0 : Word).toInt = (0 : Fin 64).val ∧ (63 : Word).toInt = (63 : Fin 64).val ∧ (0xFFFFFFFF : Word).toInt = -1 ∧
    63 < (64 : Word).toInt := by decide +kernel

/-- One channel inside a note. -/
def playing : State :=
  { State.reset with
    channels := { State.reset.channels with
      ch0 := { Channel.atReset 0xACE1 with sfxIdx := some 0, samplesPerTick := 183, tickCtr := 181, vol := 7 } } }

theorem witness_SampleWithinNote :
    playing.channels.ch0.sfxIdx = some 0 ∧ playing.channels.ch1.sfxIdx = none ∧ playing.channels.ch2.sfxIdx = none ∧
    playing.channels.ch3.sfxIdx = none ∧
    playing.channels.ch0.tickCtr.toNat + 1 < playing.channels.ch0.samplesPerTick.toNat ∧
    playing.channels.ch0.wave ≠ 6 := by decide +kernel

/-- Channel 1 at the end of note 30, channel 2 at the end of note 31 of a sound effect that loops from 31, channel 3
of one that does not loop, on noise. -/
def rolling : State :=
  let at31 (n : Fin 64) (w : BitVec 3) : Channel :=
    { Channel.atReset 0xACE1 with sfxIdx := some n, noteIdx := 31, samplesPerTick := 1, wave := w }
  { withBytes (0x3200 + 68 * 2 + 66) [31, 32] with
    channels := ⟨playing.channels.ch0, { at31 1 0 with noteIdx := 30 }, at31 2 0, at31 3 6⟩ }

theorem witness_SampleWithinNote_rollover :
    (rolling.channels.ch1.samplesPerTick.toNat ≤ rolling.channels.ch1.tickCtr.toNat + 1 ∧
      (31 : Fin 32).val = rolling.channels.ch1.noteIdx.val + 1) ∧
    (rolling.channels.ch2.noteIdx = 31 ∧ (rolling.peek (0x3200 + 68 * 2 + 66)).toNat = (31 : Fin 32).val ∧
      (rolling.peek (0x3200 + 68 * 2 + 66)).toNat < (rolling.peek (0x3200 + 68 * 2 + 67)).toNat) ∧
    (rolling.channels.ch3.noteIdx = 31 ∧ (rolling.peek (0x3200 + 68 * 3 + 67)).toNat ≤
      (rolling.peek (0x3200 + 68 * 3 + 66)).toNat ∧ rolling.channels.ch3.wave = 6) ∧
    ran (exec .sample rolling) (fun t => t.channels.ch1.noteIdx = 31 ∧ t.channels.ch2.noteIdx = 31 ∧
      t.channels.ch2.sfxIdx = some 2 ∧ t.channels.ch3.sfxIdx = none) = true := by decide +kernel

theorem witness_AudioDeterminism :
    playing.cfg = (playing.poke 0x4300 1).cfg ∧ playing.channels = (playing.poke 0x4300 1).channels ∧
    playing.masterVol = (playing.poke 0x4300 1).masterVol ∧
    (playing.poke 0x4300 1).peek 0x42FF = playing.peek 0x42FF ∧
    (playing.poke 0x4300 1).peek 0x4300 ≠ playing.peek 0x4300 := by decide +kernel

/-- V10's stored block, its header bits taken. -/
def stored : State :=
  decoding .blockHeader fun d =>
    { d with idat := [0x78, 0x01, 0x01, 0x03, 0x00, 0xFC, 0xFF, 0x41, 0x42, 0x43], inPos := 3, imgW := 1, imgH := 1 }

/-- V17's dynamic block, its header bits taken. -/
def dynamic : State :=
  decoding .blockHeader fun d =>
    { d with
      idat := [0x78, 0x01, 0x05, 0xC0, 0x81, 0x08, 0x00, 0x00, 0x00, 0x00, 0x20, 0xD6, 0xFD, 0x25, 0x0E, 0x01]
      inPos := 3 }

theorem witness_BlockHeaders :
    stored.dec.stage = .blockHeader ∧ getBits stored.dec.stream ((stored.dec.inPos + 7) / 8 * 8) 16 = some (3, 24) ∧
    getBits stored.dec.stream 24 16 = some (65535 - 3, 40) ∧ 40 + 8 * 3 ≤ 8 * stored.dec.stream.length ∧
    stored.dec.raw.length + 3 ≤ stored.dec.rawCap ∧ dynamic.dec.stage = .blockHeader ∧
    (okOption (readDynamic dynamic.dec.stream dynamic.dec.inPos)).isSome = true := by decide +kernel

theorem witness_BlockHeaders_failures :
    getBits (decoding .blockHeader id).dec.stream 0 16 = none ∧
    (getBits [0x03, 0x00] 0 16 = some (3, 16) ∧ getBits [0x03, 0x00] 16 16 = none) ∧
    (0xFEFC ≠ 65535 - 3) ∧ 8 * 4 < 32 + 8 * 1 ∧ (decoding .blockHeader id).dec.rawCap < 0 + 1 ∧
    (okOption (readDynamic [0xF5, 0x00, 0x00] 3)).isNone = true := by decide +kernel

/-- A compressed block with two bytes written, of the capacity five. -/
def inBlock : State := decoding .blockTokens fun d => { d with raw := [0x61, 0x62], imgW := 1, imgH := 1 }

theorem witness_BlockTokens :
    inBlock.dec.stage = .blockTokens ∧ inBlock.dec.raw.length < inBlock.dec.rawCap ∧
    wfDfLen 257 0 1 0 = true ∧ copyDist 1 0 ≤ inBlock.dec.raw.length ∧
    inBlock.dec.raw.length + copyLength 257 0 ≤ inBlock.dec.rawCap ∧
    (wfDfLen 257 0 2 0 = true ∧ inBlock.dec.raw.length < copyDist 2 0) ∧
    (wfDfLen 258 0 0 0 = true ∧ inBlock.dec.rawCap < inBlock.dec.raw.length + copyLength 258 0) ∧
    (decoding .blockTokens id).dec.rawCap ≤ (decoding .blockTokens id).dec.raw.length := by decide +kernel

/-- The second line of a 1 by 2 image. -/
def secondLine : State :=
  decoding .scanlines fun d =>
    { d with imgW := 1, imgH := 2, raw := [0, 1, 2, 3, 4, 4, 5, 6, 7, 8], inPos := 6, pix := [1, 2, 3, 4] }

theorem witness_FiltersReconstruct :
    secondLine.dec.stage = .scanlines ∧ secondLine.dec.inPos + secondLine.dec.stride ≤ secondLine.dec.raw.length ∧
    secondLine.dec.pix.length = 1 * secondLine.dec.stride := by decide +kernel

theorem witness_FiltersReconstruct_paeth :
    let dist (a b c v : Byte) : Nat := (((a.toNat : Int) + b.toNat - c.toNat) - v.toNat).natAbs
    (dist 10 10 10 10 ≤ dist 10 10 10 10) ∧ ¬ (dist 0 9 0 0 ≤ dist 0 9 0 9) ∧
    ¬ (dist 10 20 15 10 ≤ dist 10 20 15 15) ∧ dist 10 20 15 15 < dist 10 20 15 20 := by decide +kernel

/-- V30's raw run: `21` and the terminating zero, the limit one byte further. -/
def rawRunning : State :=
  decoding .newFormat fun d =>
    { d with script := [0, 0, 0, 0, 0, 0, 0, 0, 0x21, 0x00], codeOut := [0x61], limit := 3, mtf := mtfInit }

theorem witness_NewFormatTokens :
    rawRunning.dec.stage = .newFormat ∧ rawRunning.dec.codeOut.length < rawRunning.dec.limit ∧
    (∀ b ∈ ([0x21] : Bytes), b ≠ 0) ∧ rawRunning.dec.codeOut.length + 1 < rawRunning.dec.limit ∧
    getBits rawRunning.codeStream 0 8 = some (0x21, 8) ∧ getBits rawRunning.codeStream 8 8 = some (0, 16) ∧
    (0 : BitVec 5).toNat + 1 ≤ rawRunning.dec.codeOut.length ∧
    rawRunning.dec.codeOut.length < (1 : BitVec 5).toNat + 1 := by decide +kernel

/-- A legacy region with five bytes written. -/
def legacy : State :=
  decoding .legacy fun d => { d with codeOut := [0x6C, 0x6C, 0x6F, 0x20, 0x57], limit := 99 }

theorem witness_LegacyAndRawTokens :
    legacy.dec.stage = .legacy ∧ legacy.dec.codeOut.length < legacy.dec.limit ∧ legacy.cfg.legacyRef = .reference ∧
    legacy.cfg.legacyAlphabet = .reference ∧ (1 ≤ (0x3B : Byte).toNat ∧ (0x3B : Byte).toNat ≤ 0x3B) ∧
    0x3C ≤ (0x3C : Byte).toNat ∧ ((0x3C - 0x3C) * 16 + (0x25 : Byte).toNat % 16 = legacy.dec.codeOut.length) ∧
    (legacy.dec.codeOut.length < (0x3C - 0x3C) * 16 + (0x26 : Byte).toNat % 16) ∧
    (decoding .rawScript id).dec.stage = .rawScript := by decide +kernel

theorem witness_CommandRoundTrip :
    (Instr.text [0x41] none (some 0xFFFFFFFF) none).opcode = some 0x43 ∧
    cmd (encodeCommand 0x43 (.text [0x41] none (some 0xFFFFFFFF) none)).words (.bytes [0x41]) =
      some (.text [0x41] none (some 0xFFFFFFFF) none) := by decide +kernel

theorem witness_NewFormatRoundTrip :
    (Instr.nfRef5 2 6).wf = true ∧ ∃ bits, tokenBits fixedLencode fixedDistcode (.nfRef5 2 6) = some bits ∧
      carries [0x16, 0x03] 0 bits = true := ⟨by decide, _, rfl, by decide +kernel⟩

theorem witness_FixedBlockRoundTrip :
    (Instr.dfLen 265 1 4 1).wf = true ∧
    ∃ bits, tokenBits fixedLencode fixedDistcode (.dfLen 265 1 4 1) = some bits ∧
      carries [0xC8, 0x24] 0 bits = true :=
  ⟨by decide +kernel, [false, false, false, true, false, false, true, true, false, false, true, false, false, true],
    by decide +kernel, by decide +kernel⟩

theorem witness_ByteTokenRoundTrip :
    (∃ bits, tokenBits fixedLencode fixedDistcode (.dfDynamic true) = some bits ∧ carries [0x05] 0 bits = true) ∧
    (Instr.lgRef 0x3C 0x25).wf = true ∧
    ∃ bits, tokenBits fixedLencode fixedDistcode (.lgRef 0x3C 0x25) = some bits ∧
      carries [0x3C, 0x25] (8 * 0) bits = true :=
  ⟨⟨_, rfl, by decide +kernel⟩, by decide +kernel, _, rfl, by decide +kernel⟩

/-- The reset state with one request issued. -/
def issued (words : List Word) : State := { State.reset with port := [⟨words, .empty⟩] }

theorem witness_StepRunsCommand :
    (issued [0x53]).dec.stage = .idle ∧ (issued [0x53]).port = ⟨[0x53], .empty⟩ :: [] ∧
    cmd [0x53] .empty = some .sample := by decide +kernel

theorem witness_StepRunsToken :
    rawRunning.dec.stage ≠ .idle ∧
    fetch (decoding .newFormat fun d => { d with script := [0, 0, 0, 0, 0, 0, 0, 0, 0x01], limit := 1 }) =
      .token (.nfLit 0) 6 := by decide +kernel

theorem witness_ReservedEncodingIgnored :
    (issued [0x08]).dec.stage = .idle ∧ (issued [0x08]).port = ⟨0x08 :: [], .empty⟩ :: [] ∧
    (opRow ((0x08 : Word).toNat % 256)).isNone = true ∧ (0x0130 : Word).extractLsb' 8 8 ≠ (0 : Byte) ∧
    (opRow ((0x00020030 : Word).toNat % 256)).map (·.slots) = some 1 ∧ 2 ^ 1 ≤ (0x00020030 : Word).toNat / 65536 := by
  decide +kernel

theorem witness_StepKeepsMemory :
    (issued [0x00030003, 0x6000, 0x11]).mem.wf = true ∧
    ran (step (issued [0x00030003, 0x6000, 0x11])) (fun t => t.peek 0x6000 = 0x11) = true := by decide +kernel

/-- The invariant holds while a scanline is fetched. -/
theorem witness_Sound :
    (decoding .scanlines fun d =>
      { d with imgW := 1, imgH := 2, raw := [0, 1, 2, 3, 4, 4, 5, 6, 7, 8], inPos := 5, pix := [1, 2, 3, 4] }).Sound :=
  ⟨⟨by decide, by decide, by decide, fun _ => ⟨by decide, 1, by decide, by decide, by decide⟩⟩,
    fun h => absurd h (by decide), by decide, fun _ => rfl⟩

theorem witness_StepKeepsSound :
    (issued [0x53]).cfg.ok = true ∧ (issued [0x53]).Sound ∧ ran (step (issued [0x53])) (fun _ => true) = true :=
  ⟨by decide +kernel,
    ⟨⟨by decide, by decide, by decide, fun h => absurd h (by decide)⟩, fun h => absurd h (by decide), by decide,
      fun _ => rfl⟩, by decide +kernel⟩

theorem witness_StepNeverStops : (issued [0x53]).cfg.ok = true ∧ (issued [0x53]).Sound :=
  ⟨witness_StepKeepsSound.1, witness_StepKeepsSound.2.1⟩

end Sys2Proof.Tests
end

section
/-! SUPPORT. A step while a decoder stage runs (10_state.md R50). -/

namespace Sys2Proof.Machine

/-- A running stage goes before the ports: the step is the decoder's, its tokens executed by `exec`. -/
theorem step_of_running {s : State} (hrun : s.dec.stage ≠ .idle) : step s = decoderAct exec s :=
  if_neg hrun

/-- A fetched token is executed with its bits consumed, whatever executes the tokens. -/
theorem decoderAct_of_token {run : Instr → State → Out} {s : State} {i : Instr} {pos : Nat}
    (hfetch : fetch s = .token i pos) : decoderAct run s = run i (s.consume pos) := by
  rw [decoderAct, hfetch]

/-- Settles O56: the step is the decoder's, and the decoder executes the token it fetched. -/
theorem stepRunsToken : Obligations.StepRunsToken := by
  intro s i pos hrun hfetch
  calc step s
      _ = decoderAct exec s := step_of_running hrun
      _ = exec i (s.consume pos) := decoderAct_of_token hfetch

/-- The reset state placed in a new-format decode whose next six bits are the literal of index 0. -/
def atLiteral : State :=
  State.reset.withDec { State.reset.dec with
    stage := .newFormat
    script := List.replicate State.reset.cfg.codeStreamOff 0 ++ [0x01]
    limit := 1 }

/-- Both hypotheses of `stepRunsToken` hold of `atLiteral`; the step consumes the token's six bits. -/
theorem step_atLiteral : step atLiteral = exec (.nfLit 0) (atLiteral.consume 6) :=
  stepRunsToken atLiteral (.nfLit 0) 6 (by decide) (by decide +kernel)

end Sys2Proof.Machine
end

section
/-! SUPPORT. The memory commands and the step that takes a request (20_memory.md R78, R79; 40_memory_ops.md
R160 to R165; 30_encoding.md R100). -/

namespace Sys2Proof.Machine

/-! ## A step on the ports -/

/-- With no decoder stage running, a step is the one on the ports. -/
theorem step_of_idle {s : State} (hidle : s.dec.stage = .idle) : step s = portStep s :=
  if_pos hidle

/-- A request that decodes to a command is taken off the ports, and the command is executed. -/
theorem portStep_of_decoded {s : State} {r : Request} {rest : List Request} {i : Instr}
    (hport : s.port = r :: rest) (hdec : decodeCommand r = .ok i) : portStep s = exec i s.popPort := by
  simp only [portStep, hport, hdec]

theorem State.popPort_eq {s : State} {r : Request} {rest : List Request} (hport : s.port = r :: rest) :
    s.popPort = { s with port := rest } := by
  rw [State.popPort, hport, List.drop_one, List.tail_cons]

/-- Settles O55: the step is the one on the ports, which executes the decoded command. -/
theorem stepRunsCommand : Obligations.StepRunsCommand := by
  intro s r rest i hidle hport hdec
  calc step s
      _ = portStep s := step_of_idle hidle
      _ = exec i s.popPort := portStep_of_decoded hport hdec
      _ = exec i { s with port := rest } := by rw [State.popPort_eq hport]

/-- The hypotheses of `stepRunsCommand` hold of a `read8` request behind which a sample request waits. -/
theorem step_read8_request :
    step { State.reset with port := [⟨[0x00010000, 0x5F25], .empty⟩, ⟨[0x53], .empty⟩] } =
      exec (.read8 (some 0x5F25)) { State.reset with port := [⟨[0x53], .empty⟩] } :=
  stepRunsCommand { State.reset with port := [⟨[0x00010000, 0x5F25], .empty⟩, ⟨[0x53], .empty⟩] }
    ⟨[0x00010000, 0x5F25], .empty⟩ [⟨[0x53], .empty⟩] (.read8 (some 0x5F25)) rfl rfl rfl

/-! ## The bounds of an access -/

/-- The model's bounds test is the whole-access test of R76. -/
theorem inRange_sval_iff (a : Word) (n : Nat) : inRange (sval a) n = true ↔ accessOk a n := by
  simp only [inRange, Bool.and_eq_true, decide_eq_true_eq]
  rfl

/-- A non-negative operand is the same number signed and unsigned. -/
theorem toNat_sval {a : Word} (ha : 0 ≤ a.toInt) : (sval a).toNat = a.toNat := by
  rw [sval, BitVec.toInt_eq_toNat_of_lt (BitVec.toInt_pos_iff.mp ha), Int.toNat_natCast]

/-! ## Reads -/

/-- A read in range delivers the little-endian value of its bytes. -/
theorem readCmd_of_ok {a : Word} {n : Nat} (s : State) (ha : accessOk a n) :
    readCmd n (some a) s = s.returns (BitVec.ofNat 32 (s.readLE a.toNat n)) := by
  rw [readCmd, State.memRead, if_pos ((inRange_sval_iff a n).mpr ha), toNat_sval ha.1]

/-- A read that is not wholly in range delivers 0. -/
theorem readCmd_of_not_ok {a : Word} {n : Nat} (s : State) (ha : ¬ accessOk a n) :
    readCmd n (some a) s = s.returns 0 := by
  rw [readCmd, State.memRead, if_neg (mt (inRange_sval_iff a n).mp ha)]
  rfl

theorem State.readLE_one (s : State) (a : Nat) : s.readLE a 1 = (s.peek a).toNat := by
  simp only [State.readLE, Nat.mul_zero, Nat.add_zero]

theorem State.readLE_two (s : State) (a : Nat) :
    s.readLE a 2 = (s.peek a).toNat + 2 ^ 8 * (s.peek (a + 1)).toNat := by
  rw [State.readLE, State.readLE_one, show 2 ^ 8 = 256 from rfl]

theorem State.readLE_four (s : State) (a : Nat) :
    s.readLE a 4 = (s.peek a).toNat + 2 ^ 8 * (s.peek (a + 1)).toNat + 2 ^ 16 * (s.peek (a + 2)).toNat +
      2 ^ 24 * (s.peek (a + 3)).toNat := by
  rw [State.readLE, State.readLE, State.readLE_two, Nat.add_assoc a 1 1, Nat.add_assoc a 2 1]
  omega

/-- Settles O1: each read by its width, in range and not wholly in range. -/
theorem readValue : Obligations.ReadValue := by
  intro s a
  refine ⟨fun h => ?_, fun h => ?_, fun h => ?_, fun h => ?_, fun h => ?_, fun h => ?_⟩
  · exact congrArg Host.Outcome.next ((readCmd_of_ok s h).trans (by rw [State.readLE_one]; rfl))
  · exact congrArg Host.Outcome.next ((readCmd_of_ok s h).trans (by rw [State.readLE_two]; rfl))
  · exact congrArg Host.Outcome.next ((readCmd_of_ok s h).trans (by rw [State.readLE_four]; rfl))
  · exact congrArg Host.Outcome.next (readCmd_of_not_ok s h)
  · exact congrArg Host.Outcome.next (readCmd_of_not_ok s h)
  · exact congrArg Host.Outcome.next (readCmd_of_not_ok s h)

/-! ## Writes -/

/-- Byte `i` of the little-endian bytes of a number. -/
theorem leBytes_getD {n i : Nat} (hi : i < n) (v : Nat) :
    (leBytes n v).getD i 0 = BitVec.ofNat 8 (v / 2 ^ (8 * i)) := by
  induction n generalizing i v with
  | zero => omega
  | succ n ih =>
    cases i with
    | zero => simp [leBytes]
    | succ i =>
      have hpow : 2 ^ (8 * (i + 1)) = 256 * 2 ^ (8 * i) := by rw [Nat.mul_succ, Nat.pow_add, Nat.mul_comm]
      rw [leBytes, List.getD_cons_succ, ih (by omega), Nat.div_div_eq_div_mul, hpow]

/-- Byte `i` of the little-endian bytes of a word is its bits 8i+7..8i. -/
theorem leBytes_getD_word {n i : Nat} (hi : i < n) (v : Word) :
    (leBytes n v.toNat).getD i 0 = v.extractLsb' (8 * i) 8 := by
  rw [leBytes_getD hi, BitVec.extractLsb', Nat.shiftRight_eq_div_pow]

/-- A byte read after a write in range. -/
theorem State.peek_memWrite {s : State} (hw : s.mem.wf = true) {a : Word} {n : Nat} (ha : accessOk a n)
    (v : Word) (x : Nat) :
    (s.memWrite (sval a) n v).peek x =
      if a.toNat ≤ x ∧ x < a.toNat + n then (leBytes n v.toNat).getD (x - a.toNat) 0 else s.peek x := by
  have hnat : (sval a).toNat = a.toNat := toNat_sval ha.1
  have hfit : a.toNat + n ≤ ramSize := by
    have hend : sval a + n ≤ 0x8000 := ha.2
    unfold ramSize
    omega
  rw [State.memWrite, if_pos ((inRange_sval_iff a n).mpr ha), hnat,
    State.peek_pokeAll s hw _ _ (by rwa [leBytes_length]), leBytes_length]

/-- A write that is not wholly in range writes nothing. -/
theorem State.memWrite_of_not_ok {a : Word} {n : Nat} (s : State) (ha : ¬ accessOk a n) (v : Word) :
    s.memWrite (sval a) n v = s := by
  rw [State.memWrite, if_neg (mt (inRange_sval_iff a n).mp ha)]

/-- A write command of any width stores its value's low bytes, lowest first (R79). -/
theorem writeCmd_storesWord (n : Nat) (a v : Word) {s : State} (hw : s.mem.wf = true) :
    StoresWord n a v s (writeCmd n (some a) (some v) s) := by
  have hwrites : WritesOnly _ s (s.memWrite (sval a) n v) := s.memWrite_writes (sval a) n v
  refine ⟨congrArg State.noResult hwrites.1, fun ha i hi => ?_, fun ha x hx => ?_, fun ha => ?_⟩
  · calc (s.memWrite (sval a) n v).peek (a.toNat + i)
        _ = (leBytes n v.toNat).getD i 0 := by
          rw [State.peek_memWrite hw ha, if_pos (by omega), Nat.add_sub_cancel_left]
        _ = v.extractLsb' (8 * i) 8 := leBytes_getD_word hi v
  · have hframe : (s.memWrite (sval a) n v).peek x = s.peek x := by
      rw [State.peek_memWrite hw ha, if_neg (by omega)]
    exact hframe
  · have hsame : (s.memWrite (sval a) n v).mem = s.mem := by rw [s.memWrite_of_not_ok ha]
    exact hsame

/-- Settles O2: each write command is the write of its width. -/
theorem writeValue : Obligations.WriteValue := by
  intro s a v hw
  exact ⟨⟨_, rfl, writeCmd_storesWord 1 a v hw⟩, ⟨_, rfl, writeCmd_storesWord 2 a v hw⟩,
    ⟨_, rfl, writeCmd_storesWord 4 a v hw⟩⟩

/-- The canonical form `writeValue` asks for holds of the reset state. -/
theorem write16_reset : ∃ t, exec (.write16 (some 0x7FFE) (some 0x1234)) State.reset = .next t ∧
    StoresWord 2 0x7FFE 0x1234 State.reset t :=
  (writeValue State.reset 0x7FFE 0x1234 (by decide +kernel)).2.1

end Sys2Proof.Machine
end

section
/-! SUPPORT. What keeps the memory's canonical form and the configuration (20_memory.md R70, 00_scope.md R10):
a preorder on states, each command and each stream token in it, then hooks, loads and the step. -/

namespace Sys2Proof.Machine

/-! ## The preorder -/

/-- `t` has the configuration of `s`, and its memory is in canonical form if that of `s` is. -/
def KeepsMemory (s t : State) : Prop := t.cfg = s.cfg ∧ (s.mem.wf = true → t.mem.wf = true)

theorem KeepsMemory.refl (s : State) : KeepsMemory s s := ⟨rfl, id⟩

theorem KeepsMemory.trans {s t u : State} (h : KeepsMemory s t) (h' : KeepsMemory t u) : KeepsMemory s u :=
  ⟨h'.1.trans h.1, fun hw => h'.2 (h.2 hw)⟩

/-- A change of registers only. -/
theorem KeepsMemory.of_eq {s t : State} (hmem : t.mem = s.mem) (hcfg : t.cfg = s.cfg) : KeepsMemory s t :=
  ⟨hcfg, fun hw => hmem ▸ hw⟩

/-- An operation that only writes bytes. -/
theorem WritesOnly.keepsMemory {P : Nat → Prop} {s t : State} (h : WritesOnly P s t) : KeepsMemory s t :=
  ⟨h.cfg, h.wf⟩

/-- A further operation that only writes bytes. -/
theorem KeepsMemory.writes {P : Nat → Prop} {s t u : State} (h : KeepsMemory s t) (hw : WritesOnly P t u) :
    KeepsMemory s u := h.trans hw.keepsMemory

theorem KeepsMemory.noResult {s t : State} (h : KeepsMemory s t) : KeepsMemory s t.noResult := h

theorem keepsMemory_ignored (s : State) : KeepsMemory s s.ignored := .of_eq rfl rfl

theorem keepsMemory_withDec (s : State) (d : Decoder) : KeepsMemory s (s.withDec d) := .of_eq rfl rfl

theorem keepsMemory_raiseLoadError (s : State) (c : Cause) : KeepsMemory s (s.raiseLoadError c) := .of_eq rfl rfl

/-- The reset core's memory is built anew from the save slots (R512, R513). -/
theorem keepsMemory_resetCore (s : State) : KeepsMemory s s.resetCore := ⟨s.resetCore_cfg, s.resetMem_wf⟩

/-- Every next state of the outcome keeps what `s` has. -/
def OutKeepsMemory (s : State) (o : Out) : Prop := ∀ t, o = .next t → KeepsMemory s t

theorem OutKeepsMemory.next {s t : State} (h : KeepsMemory s t) : OutKeepsMemory s (.next t) := by
  rintro _ ⟨⟩
  exact h

theorem OutKeepsMemory.fault (s : State) (r : Fault) : OutKeepsMemory s (.fault r) := by
  rintro _ ⟨⟩

/-- An outcome reached through a state that keeps what `s` has. -/
theorem KeepsMemory.out {s u : State} {o : Out} (h : KeepsMemory s u) (ho : OutKeepsMemory u o) :
    OutKeepsMemory s o := fun t ht => h.trans (ho t ht)

theorem OutKeepsMemory.andThen {s : State} {o : Out} {f : State → Out} (ho : OutKeepsMemory s o)
    (hf : ∀ u, OutKeepsMemory u (f u)) : OutKeepsMemory s (andThen o f) := by
  intro t ht
  obtain ⟨u, hu, hut⟩ := andThen_eq_next ht
  exact (ho u hu).out (hf u) t hut

theorem OutKeepsMemory.noResult {s t : State} (h : KeepsMemory s t) : OutKeepsMemory s (.next t.noResult) :=
  .next h.noResult

theorem outKeepsMemory_ignored (s : State) : OutKeepsMemory s (.next s.ignored) := .next (keepsMemory_ignored s)

theorem outKeepsMemory_withDec (s : State) (d : Decoder) : OutKeepsMemory s (.next (s.withDec d)) :=
  .next (keepsMemory_withDec s d)

theorem OutKeepsMemory.inStage {s : State} {o : Out} (ho : OutKeepsMemory s o) (st : Stage) :
    OutKeepsMemory s (s.inStage st o) := by
  unfold State.inStage
  split
  · exact ho
  · exact .fault s _

/-! ## Memory commands -/

theorem readCmd_keepsMemory (n : Nat) (addr : Operand) (s : State) : KeepsMemory s (readCmd n addr s) := by
  cases addr with
  | none => exact keepsMemory_ignored s
  | some a => exact .of_eq rfl rfl

theorem writeCmd_keepsMemory (n : Nat) (addr v : Operand) (s : State) : KeepsMemory s (writeCmd n addr v s) := by
  unfold writeCmd
  split
  · exact (s.memWrite_writes _ n _).keepsMemory.noResult
  · exact keepsMemory_ignored s

theorem execBulkCopy_keepsMemory (dst src len : Operand) (s : State) :
    OutKeepsMemory s (execBulkCopy dst src len s) := by
  unfold execBulkCopy
  split
  · split
    · exact .noResult (.refl s)
    · exact .noResult (s.storeBlock_writes _ _).keepsMemory
  · exact outKeepsMemory_ignored s

theorem execBulkFill_keepsMemory (dst value len : Operand) (s : State) :
    OutKeepsMemory s (execBulkFill dst value len s) := by
  unfold execBulkFill
  split
  · split
    · exact .noResult (.refl s)
    · exact .noResult (s.storeBlock_writes _ _).keepsMemory
  · exact outKeepsMemory_ignored s

/-! ## Rasterizer state -/

theorem execSetClip_keepsMemory (x y w h : Operand) (s : State) : OutKeepsMemory s (execSetClip x y w h s) := by
  unfold execSetClip
  split
  · exact .noResult (s.pokePairs_writes _).keepsMemory
  · exact .noResult (s.pokePairs_writes _).keepsMemory

theorem execSetCamera_keepsMemory (x y : Operand) (s : State) : OutKeepsMemory s (execSetCamera x y s) :=
  .noResult ((s.poke16_writes _ _).keepsMemory.writes (State.poke16_writes _ _ _))

theorem execSetColor_keepsMemory (c : Operand) (s : State) : OutKeepsMemory s (execSetColor c s) := by
  cases c with
  | none => exact .noResult (s.poke_writes _ _).keepsMemory
  | some w => exact .noResult (s.poke_writes _ _).keepsMemory

theorem execSetPalette_keepsMemory (c0 c1 p : Operand) (s : State) :
    OutKeepsMemory s (execSetPalette c0 c1 p s) := by
  cases c0 with
  | none =>
    cases c1 with
    | none => exact .noResult (s.pokePairs_writes _).keepsMemory
    | some b => exact .noResult (.refl s)
  | some a =>
    cases c1 with
    | none => exact .noResult (.refl s)
    | some b =>
      unfold execSetPalette
      dsimp only
      split
      · exact .noResult (s.poke_writes _ _).keepsMemory
      · split
        · exact .noResult (s.poke_writes _ _).keepsMemory
        · exact .noResult (.refl s)

theorem State.markAll_keepsMemory (s : State) (l : List (BitVec 4 × Bool)) : KeepsMemory s (s.markAll l) := by
  induction l generalizing s with
  | nil => exact .refl s
  | cons q l ih => exact (s.poke_writes _ _).keepsMemory.trans (ih (s.markTransparent q.1 q.2))

theorem execSetTransparent_keepsMemory (c t : Operand) (s : State) :
    OutKeepsMemory s (execSetTransparent c t s) := by
  cases c with
  | none => exact .noResult (s.markAll_keepsMemory _)
  | some a => exact .noResult (s.poke_writes _ _).keepsMemory

theorem execSetFillPattern_keepsMemory (pattern trans : Operand) (s : State) :
    OutKeepsMemory s (execSetFillPattern pattern trans s) :=
  .noResult ((s.poke16_writes _ _).keepsMemory.writes (State.poke_writes _ _ _))

theorem execSetCursor_keepsMemory (x y c : Operand) (s : State) : OutKeepsMemory s (execSetCursor x y c s) :=
  .noResult (((s.poke_writes _ _).keepsMemory.writes (State.poke_writes _ _ _)).writes (State.colorStep_writes _ c))

/-! ## Primitives -/

/-- The colour step and the points of a pen-based command. -/
theorem keepsMemory_colorStep_plotAll (s : State) (c : Operand) (l : List (Int × Int)) :
    KeepsMemory s ((s.colorStep c).plotAll l) :=
  (s.colorStep_writes c).keepsMemory.writes (State.plotAll_screen _ l)

theorem execClear_keepsMemory (c : Operand) (s : State) : OutKeepsMemory s (execClear c s) :=
  .noResult ((s.storeBlock_writes _ _).keepsMemory.writes (State.pokePairs_writes _ _))

theorem execSetPixel_keepsMemory (x y c : Operand) (s : State) : OutKeepsMemory s (execSetPixel x y c s) := by
  unfold execSetPixel
  split
  · exact .noResult ((s.colorStep_writes c).keepsMemory.writes (State.plot_screen _ _ _))
  · exact outKeepsMemory_ignored s

theorem execGetPixel_keepsMemory (x y : Operand) (s : State) : OutKeepsMemory s (execGetPixel x y s) := by
  unfold execGetPixel
  split
  · exact .next (.of_eq rfl rfl)
  · exact outKeepsMemory_ignored s

theorem execLine_keepsMemory (x0 y0 x1 y1 c : Operand) (s : State) :
    OutKeepsMemory s (execLine x0 y0 x1 y1 c s) := by
  unfold execLine
  split
  · exact .noResult (((keepsMemory_colorStep_plotAll s c _).writes (State.poke16_writes _ _ _)).writes
      (State.poke16_writes _ _ _))
  · exact outKeepsMemory_ignored s

theorem rectCmd_keepsMemory (points : Int → Int → Int → Int → List (Int × Int)) (x0 y0 x1 y1 c : Operand)
    (s : State) : KeepsMemory s (rectCmd points x0 y0 x1 y1 c s) := by
  unfold rectCmd
  split
  · exact (keepsMemory_colorStep_plotAll s c _).noResult
  · exact keepsMemory_ignored s

theorem circleCmd_keepsMemory (points : Int → Int → Int → List (Int × Int)) (x y r c : Operand) (s : State) :
    KeepsMemory s (circleCmd points x y r c s) := by
  unfold circleCmd
  split
  · split
    · exact (s.colorStep_writes c).keepsMemory.noResult
    · exact (keepsMemory_colorStep_plotAll s c _).noResult
  · exact keepsMemory_ignored s

theorem ellipseCmd_keepsMemory (points : Int → Int → Int → Int → List (Int × Int)) (x0 y0 x1 y1 c : Operand)
    (s : State) : KeepsMemory s (ellipseCmd points x0 y0 x1 y1 c s) := by
  unfold ellipseCmd
  split
  · exact (keepsMemory_colorStep_plotAll s c _).noResult
  · exact keepsMemory_ignored s

/-! ## Blits and text -/

theorem execSprite_keepsMemory (n x y w h flipX flipY : Operand) (s : State) :
    OutKeepsMemory s (execSprite n x y w h flipX flipY s) := by
  unfold execSprite
  split
  · exact .noResult (s.drawSprite_screen _ _ _ _ _ _ _).keepsMemory
  · exact outKeepsMemory_ignored s

theorem execSpriteScaled_keepsMemory (sx sy sw sh dx dy dw dh flipX flipY : Operand) (s : State) :
    OutKeepsMemory s (execSpriteScaled sx sy sw sh dx dy dw dh flipX flipY s) := by
  unfold execSpriteScaled
  split
  · exact .noResult (s.drawScaled_screen _ _ _ _ _ _ _ _ _ _).keepsMemory
  · exact outKeepsMemory_ignored s

theorem execTileMap_keepsMemory (cx0 cy0 sx sy cw ch layers : Operand) (s : State) :
    OutKeepsMemory s (execTileMap cx0 cy0 sx sy cw ch layers s) := by
  unfold execTileMap
  split
  · exact .noResult (s.drawCells_screen _ _).keepsMemory
  · exact outKeepsMemory_ignored s

theorem execText_keepsMemory (str : Bytes) (x y c : Operand) (s : State) :
    OutKeepsMemory s (execText str x y c s) :=
  .noResult ((keepsMemory_colorStep_plotAll s c _).writes (State.pokePairs_writes _ _))

/-! ## Synthesizer -/

theorem keepsMemory_withChannels (s : State) (cs : Channels) : KeepsMemory s (s.withChannels cs) :=
  .of_eq rfl rfl

theorem State.playSfx_keepsMemory (s : State) (n : Int) (channel offset : Operand) :
    KeepsMemory s (s.playSfx n channel offset) := by
  unfold State.playSfx
  split
  · exact keepsMemory_withChannels s _
  · split
    · exact keepsMemory_withChannels s _
    · exact .refl s

theorem execSfx_keepsMemory (n channel offset : Operand) (s : State) :
    OutKeepsMemory s (execSfx n channel offset s) := by
  cases n with
  | none => exact outKeepsMemory_ignored s
  | some n => exact .noResult (s.playSfx_keepsMemory _ channel offset)

theorem execMusic_keepsMemory (n : Operand) (s : State) : OutKeepsMemory s (execMusic n s) := by
  unfold execMusic
  split
  · split
    · exact .noResult (.of_eq rfl rfl)
    · split
      · exact .noResult (.of_eq rfl rfl)
      · exact .noResult (.refl s)
  · exact outKeepsMemory_ignored s

theorem execSetMasterVolume_keepsMemory (v : Operand) (s : State) :
    OutKeepsMemory s (execSetMasterVolume v s) := by
  cases v with
  | none => exact outKeepsMemory_ignored s
  | some w => exact .noResult (.of_eq rfl rfl)

theorem execSample_keepsMemory (s : State) : OutKeepsMemory s (execSample s) := .next (.of_eq rfl rfl)

/-! ## Hooks -/

/-- A command of a trace means what it means on the command port (60_exceptions.md R489). -/
theorem runTraceItem_eq_exec (t : TraceItem) (s : State) : runTraceItem t s = exec t.val s := by
  obtain ⟨i, hi⟩ := t
  cases i with
  | reset | loadCart | run | pause | resume | stop | unload | step | queryError | queryFps | queryFrame
  | setMasterVolume => exact absurd hi Bool.false_ne_true
  | dfStored | dfFixed | dfDynamic | dfReserved | dfLit | dfEob | dfLen => exact absurd hi Bool.false_ne_true
  | fltNone | fltSub | fltUp | fltAvg | fltPaeth => exact absurd hi Bool.false_ne_true
  | nfLit | nfRef15 | nfRef10 | nfRef5 | nfRaw => exact absurd hi Bool.false_ne_true
  | lgEsc | lgSym | lgRef | rawScript => exact absurd hi Bool.false_ne_true
  | _ => rfl

/-- The commands that may stand in a trace. -/
theorem exec_keepsMemory_of_inTrace {i : Instr} (hi : i.inTrace = true) (s : State) :
    OutKeepsMemory s (exec i s) := by
  cases i with
  | read8 addr => exact .next (readCmd_keepsMemory 1 addr s)
  | read16 addr => exact .next (readCmd_keepsMemory 2 addr s)
  | read32 addr => exact .next (readCmd_keepsMemory 4 addr s)
  | write8 addr v => exact .next (writeCmd_keepsMemory 1 addr v s)
  | write16 addr v => exact .next (writeCmd_keepsMemory 2 addr v s)
  | write32 addr v => exact .next (writeCmd_keepsMemory 4 addr v s)
  | bulkCopy dst src len => exact execBulkCopy_keepsMemory dst src len s
  | bulkFill dst value len => exact execBulkFill_keepsMemory dst value len s
  | setClip x y w h => exact execSetClip_keepsMemory x y w h s
  | setCamera x y => exact execSetCamera_keepsMemory x y s
  | setColor c => exact execSetColor_keepsMemory c s
  | setPalette c0 c1 p => exact execSetPalette_keepsMemory c0 c1 p s
  | setTransparent c t => exact execSetTransparent_keepsMemory c t s
  | setFillPattern pattern trans => exact execSetFillPattern_keepsMemory pattern trans s
  | setCursor x y c => exact execSetCursor_keepsMemory x y c s
  | clear c => exact execClear_keepsMemory c s
  | setPixel x y c => exact execSetPixel_keepsMemory x y c s
  | getPixel x y => exact execGetPixel_keepsMemory x y s
  | line x0 y0 x1 y1 c => exact execLine_keepsMemory x0 y0 x1 y1 c s
  | rect x0 y0 x1 y1 c => exact .next (rectCmd_keepsMemory rectPoints x0 y0 x1 y1 c s)
  | rectFill x0 y0 x1 y1 c => exact .next (rectCmd_keepsMemory rectFillPoints x0 y0 x1 y1 c s)
  | circle x y r c => exact .next (circleCmd_keepsMemory circlePoints x y r c s)
  | circleFill x y r c => exact .next (circleCmd_keepsMemory circleFillPoints x y r c s)
  | ellipse x0 y0 x1 y1 c => exact .next (ellipseCmd_keepsMemory ellipsePoints x0 y0 x1 y1 c s)
  | ellipseFill x0 y0 x1 y1 c => exact .next (ellipseCmd_keepsMemory ellipseFillPoints x0 y0 x1 y1 c s)
  | sprite n x y w h flipX flipY => exact execSprite_keepsMemory n x y w h flipX flipY s
  | spriteScaled sx sy sw sh dx dy dw dh flipX flipY =>
    exact execSpriteScaled_keepsMemory sx sy sw sh dx dy dw dh flipX flipY s
  | tileMap cx0 cy0 sx sy cw ch layers => exact execTileMap_keepsMemory cx0 cy0 sx sy cw ch layers s
  | text str x y c => exact execText_keepsMemory str x y c s
  | sfx n channel offset => exact execSfx_keepsMemory n channel offset s
  | music n => exact execMusic_keepsMemory n s
  | sample => exact execSample_keepsMemory s
  | _ => exact absurd hi Bool.false_ne_true

theorem runTrace_keepsMemory (l : List TraceItem) (s : State) : OutKeepsMemory s (runTrace l s) := by
  induction l generalizing s with
  | nil => exact .next (.refl s)
  | cons t l ih =>
    have hitem : OutKeepsMemory s (runTraceItem t s) := by
      rw [runTraceItem_eq_exec]
      exact exec_keepsMemory_of_inTrace t.property s
    exact hitem.andThen ih

theorem keepsMemory_raiseScriptError (s : State) (msg : Bytes) : KeepsMemory s (s.raiseScriptError msg) :=
  .of_eq rfl rfl

theorem State.recordLoad_keepsMemory (s : State) (a : LoadAnswer) : KeepsMemory s (s.recordLoad a) := by
  unfold State.recordLoad
  split
  · exact .of_eq rfl rfl
  · exact keepsMemory_raiseScriptError s a.msg

theorem callLoad_keepsMemory (s : State) : OutKeepsMemory s (callLoad s) := by
  have htook : KeepsMemory s s.tookLoadAnswer := .of_eq rfl rfl
  exact (htook.out (runTrace_keepsMemory _ _)).andThen fun u => .next (u.recordLoad_keepsMemory _)

/-- A hook call keeps what its continuation keeps, whatever the script engine answers. -/
theorem callHook_keepsMemory (h : Hook) {f : HookAnswer → State → Out}
    (hf : ∀ a u, OutKeepsMemory u (f a u)) (s : State) : OutKeepsMemory s (callHook h f s) := by
  have htook : KeepsMemory s s.tookHookAnswer := .of_eq rfl rfl
  exact (htook.out (runTrace_keepsMemory _ _)).andThen (hf _)

/-! ## Controller -/

theorem keepsMemory_enter (s : State) (l : Lifecycle) : KeepsMemory s (s.enter l) := .of_eq rfl rfl

theorem afterInit_keepsMemory (a : HookAnswer) (s : State) : OutKeepsMemory s (afterInit a s) := by
  refine .noResult ?_
  split
  · exact .refl s
  · exact keepsMemory_raiseScriptError s a.msg

theorem execRun_keepsMemory (s : State) : OutKeepsMemory s (execRun s) := by
  unfold execRun
  split
  · split
    · exact (keepsMemory_enter s .running).out (callHook_keepsMemory .init afterInit_keepsMemory _)
    · exact .noResult (keepsMemory_enter s .running)
  · exact .noResult (.refl s)

theorem execPause_keepsMemory (s : State) : OutKeepsMemory s (execPause s) := by
  refine .noResult ?_
  split
  · exact keepsMemory_enter s .paused
  · exact .refl s

theorem execResume_keepsMemory (s : State) : OutKeepsMemory s (execResume s) := by
  refine .noResult ?_
  split
  · exact keepsMemory_enter s .running
  · exact .refl s

theorem keepsMemory_commitFrame (s : State) : KeepsMemory s s.commitFrame := .of_eq rfl rfl

theorem afterDraw_keepsMemory (a : HookAnswer) (s : State) : OutKeepsMemory s (afterDraw a s) := by
  refine .noResult ?_
  split
  · exact keepsMemory_raiseScriptError s a.msg
  · exact keepsMemory_commitFrame s

theorem drawPhase_keepsMemory (s : State) : OutKeepsMemory s (drawPhase s) := by
  unfold drawPhase
  split
  · exact callHook_keepsMemory .draw afterDraw_keepsMemory s
  · exact .noResult (keepsMemory_commitFrame s)

theorem afterUpdate_keepsMemory (a : HookAnswer) (s : State) : OutKeepsMemory s (afterUpdate a s) := by
  unfold afterUpdate
  split
  · exact .noResult (keepsMemory_raiseScriptError s a.msg)
  · exact drawPhase_keepsMemory s

theorem frame_keepsMemory (s : State) : OutKeepsMemory s (frame s) := by
  unfold frame
  split
  · exact callHook_keepsMemory _ afterUpdate_keepsMemory s
  · exact drawPhase_keepsMemory s

theorem execStep_keepsMemory (s : State) : OutKeepsMemory s (execStep s) := by
  unfold execStep
  split
  · exact KeepsMemory.out (.of_eq rfl rfl) (frame_keepsMemory _)
  · exact .noResult (.refl s)

/-! ## Stream tokens -/

theorem badDeflate_keepsMemory (s : State) : OutKeepsMemory s (badDeflate s) :=
  .next (keepsMemory_raiseLoadError s _)

theorem badCodeStream_keepsMemory (s : State) : OutKeepsMemory s (badCodeStream s) :=
  .next (keepsMemory_raiseLoadError s _)

theorem State.copyStored_keepsMemory (s : State) (final : Bool) (len nlen pos : Nat) :
    OutKeepsMemory s (s.copyStored final len nlen pos) := by
  unfold State.copyStored
  split
  · exact badDeflate_keepsMemory s
  · split
    · exact badDeflate_keepsMemory s
    · split
      · exact badDeflate_keepsMemory s
      · exact outKeepsMemory_withDec s _

theorem execDfStored_keepsMemory (final : Bool) (s : State) : OutKeepsMemory s (execDfStored final s) := by
  refine OutKeepsMemory.inStage ?_ _
  split
  · exact badDeflate_keepsMemory s
  · exact s.copyStored_keepsMemory final _ _ _

theorem execDfDynamic_keepsMemory (final : Bool) (s : State) : OutKeepsMemory s (execDfDynamic final s) := by
  refine OutKeepsMemory.inStage ?_ _
  split
  · exact badDeflate_keepsMemory s
  · exact outKeepsMemory_withDec s _

theorem execDfLit_keepsMemory (sym : Byte) (s : State) : OutKeepsMemory s (execDfLit sym s) := by
  refine OutKeepsMemory.inStage ?_ _
  split
  · exact badDeflate_keepsMemory s
  · exact outKeepsMemory_withDec s _

theorem execDfLen_keepsMemory (lsym lextra dsym dextra : Nat) (s : State) :
    OutKeepsMemory s (execDfLen lsym lextra dsym dextra s) := by
  refine OutKeepsMemory.inStage ?_ _
  split
  · exact badDeflate_keepsMemory s
  · split
    · exact badDeflate_keepsMemory s
    · split
      · exact badDeflate_keepsMemory s
      · exact outKeepsMemory_withDec s _

theorem State.scanline_keepsMemory (s : State) (pred : Byte → Byte → Byte → Byte) :
    OutKeepsMemory s (s.scanline pred) := by
  refine OutKeepsMemory.inStage ?_ _
  dsimp only
  split
  · exact .fault s _
  · exact outKeepsMemory_withDec s _

theorem State.copyCode_keepsMemory (s : State) (offset length : Nat) :
    OutKeepsMemory s (s.copyCode offset length) := by
  unfold State.copyCode
  split
  · exact badCodeStream_keepsMemory s
  · exact outKeepsMemory_withDec s _

theorem execLgRef_keepsMemory (b0 b1 : Byte) (s : State) : OutKeepsMemory s (execLgRef b0 b1 s) := by
  refine OutKeepsMemory.inStage ?_ _
  dsimp only
  split
  · exact badCodeStream_keepsMemory s
  · exact s.copyCode_keepsMemory _ _

/-- Every stream token; a command executed as one faults. -/
theorem runToken_keepsMemory (i : Instr) (s : State) : OutKeepsMemory s (runToken i s) := by
  cases i with
  | dfStored final => exact execDfStored_keepsMemory final s
  | dfFixed final => exact (outKeepsMemory_withDec s _).inStage _
  | dfDynamic final => exact execDfDynamic_keepsMemory final s
  | dfReserved final => exact (badDeflate_keepsMemory s).inStage _
  | dfLit sym => exact execDfLit_keepsMemory sym s
  | dfEob => exact (outKeepsMemory_withDec s _).inStage _
  | dfLen lsym lextra dsym dextra => exact execDfLen_keepsMemory lsym lextra dsym dextra s
  | fltNone | fltSub | fltUp | fltAvg | fltPaeth => exact s.scanline_keepsMemory _
  | nfLit index => exact (outKeepsMemory_withDec s _).inStage _
  | nfRef15 field length => exact (s.copyCode_keepsMemory _ length).inStage _
  | nfRef10 field length => exact (s.copyCode_keepsMemory _ length).inStage _
  | nfRef5 field length => exact (s.copyCode_keepsMemory _ length).inStage _
  | nfRaw => exact (outKeepsMemory_withDec s _).inStage _
  | lgEsc b1 => exact (outKeepsMemory_withDec s _).inStage _
  | lgSym b0 => exact (outKeepsMemory_withDec s _).inStage _
  | lgRef b0 b1 => exact execLgRef_keepsMemory b0 b1 s
  | rawScript => exact (outKeepsMemory_withDec s _).inStage _
  | _ => exact .fault s _

/-! ## Between the stages -/

theorem endInflate_keepsMemory (s : State) : OutKeepsMemory s (endInflate s) := by
  unfold endInflate
  split
  · exact badDeflate_keepsMemory s
  · split
    · exact badDeflate_keepsMemory s
    · exact outKeepsMemory_withDec s _

theorem State.splitPayload_keepsMemory (s : State) : KeepsMemory s s.splitPayload := by
  have hstore : KeepsMemory s (s.storeBlock 0 ((extractPayload s.dec.pix).take dataSize)) :=
    (s.storeBlock_writes _ _).keepsMemory
  exact hstore.trans (.of_eq rfl rfl)

theorem endScanlines_keepsMemory (s : State) : OutKeepsMemory s (endScanlines s) :=
  .next (s.splitPayload_keepsMemory.trans (keepsMemory_withDec _ _))

theorem State.applySave_keepsMemory (s : State) : KeepsMemory s s.applySave := by
  unfold State.applySave
  split
  · split
    · exact (s.storeBlock_writes _ _).keepsMemory
    · exact .refl s
  · exact .refl s

theorem finishLoad_keepsMemory (s : State) : OutKeepsMemory s (finishLoad s) := by
  have hmarked : KeepsMemory s s.markLoaded := .of_eq rfl rfl
  have hsaved : KeepsMemory s (s.markLoaded.applySave.withDec { s.dec with stage := .idle }) :=
    (hmarked.trans s.markLoaded.applySave_keepsMemory).trans (keepsMemory_withDec _ _)
  exact (hsaved.out (callLoad_keepsMemory _)).andThen fun u => .next (.of_eq rfl rfl)

theorem advance_keepsMemory (s : State) : OutKeepsMemory s (advance s) := by
  unfold advance
  split
  · exact endInflate_keepsMemory s
  · exact endScanlines_keepsMemory s
  · exact finishLoad_keepsMemory s
  · exact finishLoad_keepsMemory s
  · exact finishLoad_keepsMemory s
  all_goals exact .next (.refl s)

/-! ## The decoder and the loader -/

/-- A decoder step keeps what the execution of its tokens keeps. -/
theorem decoderAct_keepsMemory {run : Instr → State → Out} (hrun : ∀ i u, OutKeepsMemory u (run i u))
    (s : State) : OutKeepsMemory s (decoderAct run s) := by
  unfold decoderAct
  split
  · exact (keepsMemory_withDec s _).out (hrun _ _)
  · exact advance_keepsMemory s
  · exact .next (keepsMemory_raiseLoadError s _)
  · exact .fault s _

theorem runDecoder_keepsMemory (n : Nat) (s : State) : OutKeepsMemory s (runDecoder n s) := by
  induction n generalizing s with
  | zero => exact .next (.refl s)
  | succ n ih =>
    unfold runDecoder
    split
    · exact .next (.refl s)
    · exact (decoderAct_keepsMemory runToken_keepsMemory s).andThen ih

theorem loadPng_keepsMemory (s : State) (file : Bytes) : OutKeepsMemory s (loadPng s file) := by
  unfold loadPng
  split
  · exact .next (keepsMemory_raiseLoadError s _)
  · exact (keepsMemory_withDec s _).out (runDecoder_keepsMemory _ _)

/-! ## Text carts -/

/-- The run of pixels is unfolded by its equation: comparing it with its tail by evaluation would compute with the
size of the memory. -/
theorem State.setPixels_keepsMemory (s : State) (y x : Nat) (ds : List (BitVec 4)) :
    KeepsMemory s (s.setPixels y x ds) := by
  induction ds generalizing s x with
  | nil => exact .refl s
  | cons d ds ih =>
    unfold State.setPixels
    exact (s.pset_writes _ _ _ _).keepsMemory.trans (ih _ (x + 1))

theorem State.gfxLine_keepsMemory (s : State) (ln : Bytes) (row : Nat) : KeepsMemory s (s.gfxLine ln row) := by
  unfold State.gfxLine
  split
  · exact s.setPixels_keepsMemory row 0 _
  · exact .refl s

theorem State.pairLine_keepsMemory (s : State) (base rows : Nat) (ln : Bytes) (row : Nat) :
    KeepsMemory s (s.pairLine base rows ln row) := by
  unfold State.pairLine
  split
  · exact (s.pokeAll_writes _ _).keepsMemory
  · exact .refl s

theorem State.sfxLine_keepsMemory (s : State) (ln : Bytes) (row : Nat) : KeepsMemory s (s.sfxLine ln row) := by
  unfold State.sfxLine
  split
  · exact (s.pokePairs_writes _).keepsMemory
  · exact .refl s

theorem State.musicLine_keepsMemory (s : State) (ln : Bytes) (row : Nat) :
    KeepsMemory s (s.musicLine ln row) := by
  unfold State.musicLine
  split
  · exact (s.pokePairs_writes _).keepsMemory
  · exact .refl s

theorem State.dataLine_keepsMemory (s : State) (sec : Section) (ln : Bytes) (row : Nat) :
    KeepsMemory s (s.dataLine sec ln row) := by
  cases sec with
  | graphics => exact s.gfxLine_keepsMemory ln row
  | flags => exact s.pairLine_keepsMemory flagsBase 2 ln row
  | map => exact s.pairLine_keepsMemory mapBase 32 ln row
  | sound => exact s.sfxLine_keepsMemory ln row
  | music => exact s.musicLine_keepsMemory ln row
  | none | script | skip => exact .refl s

theorem State.textLines_keepsMemory (s : State) (sec : Section) (row : Nat) (lines : List Bytes) :
    KeepsMemory s (s.textLines sec row lines).1 := by
  induction lines generalizing s sec row with
  | nil => exact .refl s
  | cons ln lines ih =>
    unfold State.textLines
    split
    · exact ih s _ 0
    · split
      · dsimp only
        split
        · exact .refl s
        · exact (keepsMemory_withDec s _).trans (ih _ sec row)
      · exact (s.dataLine_keepsMemory sec ln row).trans (ih _ sec (row + 1))

theorem loadTextCart_keepsMemory (s : State) (file : Bytes) : OutKeepsMemory s (loadTextCart s file) := by
  have hread : KeepsMemory s (s.loadText file).1 :=
    (keepsMemory_withDec s _).trans (State.textLines_keepsMemory _ .none 0 (splitLines [] file))
  unfold loadTextCart
  dsimp only
  split
  · exact hread.out (finishLoad_keepsMemory _)
  · exact .next (hread.trans (keepsMemory_raiseLoadError _ _))

theorem execLoadCart_keepsMemory (src : CartSource) (s : State) : OutKeepsMemory s (execLoadCart src s) := by
  refine (keepsMemory_resetCore s).out ?_
  cases src with
  | readFailure => exact .next (keepsMemory_raiseLoadError _ _)
  | image file sav =>
    refine (keepsMemory_withDec s.resetCore { s.resetCore.dec with file := file, sav := sav }).out ?_
    unfold execLoadCart
    dsimp only
    split
    · exact .next (keepsMemory_raiseLoadError _ _)
    · exact loadPng_keepsMemory _ file
    · exact loadTextCart_keepsMemory _ file

/-! ## Every instruction, and the step -/

/-- The dispatch executes a stream token as the loader does. -/
theorem exec_eq_runToken {i : Instr} (hi : i.isCommand = false) (s : State) : exec i s = runToken i s := by
  cases i with
  | dfStored | dfFixed | dfDynamic | dfReserved | dfLit | dfEob | dfLen => rfl
  | fltNone | fltSub | fltUp | fltAvg | fltPaeth => rfl
  | nfLit | nfRef15 | nfRef10 | nfRef5 | nfRaw => rfl
  | lgEsc | lgSym | lgRef | rawScript => rfl
  | _ => exact absurd hi.symm Bool.false_ne_true

/-- The commands that may not stand in a trace. -/
theorem exec_keepsMemory_of_not_inTrace {i : Instr} (hc : i.isCommand = true) (ht : i.inTrace = false)
    (s : State) : OutKeepsMemory s (exec i s) := by
  cases i with
  | reset => exact .noResult (keepsMemory_resetCore s)
  | loadCart src => exact execLoadCart_keepsMemory src s
  | run => exact execRun_keepsMemory s
  | pause => exact execPause_keepsMemory s
  | resume => exact execResume_keepsMemory s
  | stop | unload => exact .noResult (keepsMemory_enter s .stopped)
  | step => exact execStep_keepsMemory s
  | queryError | queryFps | queryFrame => exact .next (.of_eq rfl rfl)
  | setMasterVolume v => exact execSetMasterVolume_keepsMemory v s
  | dfStored | dfFixed | dfDynamic | dfReserved | dfLit | dfEob | dfLen => exact absurd hc Bool.false_ne_true
  | fltNone | fltSub | fltUp | fltAvg | fltPaeth => exact absurd hc Bool.false_ne_true
  | nfLit | nfRef15 | nfRef10 | nfRef5 | nfRaw => exact absurd hc Bool.false_ne_true
  | lgEsc | lgSym | lgRef | rawScript => exact absurd hc Bool.false_ne_true
  | _ => exact absurd ht.symm Bool.false_ne_true

/-- Every instruction: a token, a command of a trace, or another command. -/
theorem exec_keepsMemory (i : Instr) (s : State) : OutKeepsMemory s (exec i s) := by
  cases hc : i.isCommand with
  | false => exact exec_eq_runToken hc s ▸ runToken_keepsMemory i s
  | true =>
    cases ht : i.inTrace with
    | false => exact exec_keepsMemory_of_not_inTrace hc ht s
    | true => exact exec_keepsMemory_of_inTrace ht s

theorem portStep_keepsMemory (s : State) : OutKeepsMemory s (portStep s) := by
  have hpop : KeepsMemory s s.popPort := .of_eq rfl rfl
  unfold portStep
  split
  · exact .next (.refl s)
  · split
    · exact hpop.out (exec_keepsMemory _ _)
    · exact .next (.refl s)
    · exact .next (.refl s)
    all_goals exact hpop.out (outKeepsMemory_ignored _)

theorem step_keepsMemory (s : State) : OutKeepsMemory s (step s) := by
  unfold step
  split
  · exact portStep_keepsMemory s
  · exact decoderAct_keepsMemory exec_keepsMemory s

/-- Settles O58: every step keeps the canonical form and the configuration. -/
theorem stepKeepsMemory : Obligations.StepKeepsMemory := by
  intro s t hw hstep
  obtain ⟨hcfg, hwf⟩ := step_keepsMemory s t hstep
  exact ⟨hwf hw, hcfg⟩

/-- The reset state with a `write8` to the framebuffer issued. -/
def withWriteIssued : State := { State.reset with port := [⟨[0x00030003, 0x6000, 0x11], .empty⟩] }

/-- Both hypotheses of `stepKeepsMemory` hold of `withWriteIssued`, whose step executes the write. -/
theorem step_withWriteIssued : ∃ t, step withWriteIssued = .next t ∧ t.mem.wf = true ∧ t.cfg = Config.default := by
  have hstep : step withWriteIssued = exec (.write8 (some 0x6000) (some 0x11)) { State.reset with port := [] } :=
    stepRunsCommand withWriteIssued ⟨[0x00030003, 0x6000, 0x11], .empty⟩ [] _ rfl rfl rfl
  exact ⟨_, hstep, stepKeepsMemory withWriteIssued _ (by decide +kernel) hstep⟩

end Sys2Proof.Machine
end

section
/-! SUPPORT. What the bit reader does on the bits the encoder writes (30_encoding.md R114, R116, R130): a stream
that carries a field's bits reads as the field, and carries of a joined list are carries of its parts. -/

namespace Sys2Proof

/-! ## Bits a stream carries -/

/-- The tests of a cons, as a conjunction. -/
theorem carries_cons {b : Bytes} {pos : Nat} {bit : Bool} {bits : List Bool} :
    carries b pos (bit :: bits) = true ↔ bitAt b pos = some bit ∧ carries b (pos + 1) bits = true := by
  rw [carries, Bool.and_eq_true, beq_iff_eq]

theorem carries_append {b : Bytes} {pos : Nat} {xs ys : List Bool} :
    carries b pos (xs ++ ys) = true ↔ carries b pos xs = true ∧ carries b (pos + xs.length) ys = true := by
  induction xs generalizing pos with
  | nil => simp [carries]
  | cons x xs ih =>
    rw [List.cons_append, carries_cons, carries_cons, ih, and_assoc, List.length_cons, Nat.add_assoc,
      Nat.add_comm 1]

/-- A bit that can be read lies inside the stream. -/
theorem lt_of_bitAt {b : Bytes} {pos : Nat} {bit : Bool} (h : bitAt b pos = some bit) : pos < 8 * b.length := by
  obtain ⟨x, hx, -⟩ := Option.map_eq_some_iff.mp h
  have hlt : pos / 8 < b.length := (List.getElem?_eq_some_iff.mp hx).1
  omega

/-- A stream is at least as long as the bits it carries. -/
theorem length_le_of_carries {b : Bytes} {pos : Nat} {bits : List Bool} (h : carries b pos bits = true) :
    bits.length ≤ 8 * b.length := by
  suffices hend : bits ≠ [] → pos + bits.length ≤ 8 * b.length by
    cases bits with
    | nil => exact Nat.zero_le _
    | cons bit bits => have := hend (List.cons_ne_nil _ _); omega
  intro hne
  induction bits generalizing pos with
  | nil => exact absurd rfl hne
  | cons bit bits ih =>
    obtain ⟨hbit, hrest⟩ := carries_cons.mp h
    cases bits with
    | nil => exact lt_of_bitAt hbit
    | cons c cs =>
      have := ih hrest (List.cons_ne_nil _ _)
      rw [List.length_cons]
      omega

/-! ## Fields -/

@[simp] theorem length_fieldBits (n v : Nat) : (fieldBits n v).length = n := by
  induction n generalizing v with
  | zero => rfl
  | succ n ih => rw [fieldBits, List.length_cons, ih]

@[simp] theorem length_codeBits (n v : Nat) : (codeBits n v).length = n := by
  rw [codeBits, List.length_reverse, length_fieldBits]

/-- A field splits at its highest bit, as it is defined by its lowest. -/
theorem fieldBits_succ_high (n v : Nat) : fieldBits (n + 1) v = fieldBits n v ++ [v.testBit n] := by
  induction n generalizing v with
  | zero => rfl
  | succ n ih =>
    rw [fieldBits, ih, Nat.testBit_div_two]
    rfl

/-- A code's first bit is its most significant one. -/
theorem codeBits_succ (n v : Nat) : codeBits (n + 1) v = v.testBit n :: codeBits n v := by
  rw [codeBits, fieldBits_succ_high, List.reverse_append]
  rfl

/-- Reading a field gives the value its bits encode. -/
theorem getBits_of_carries {b : Bytes} {n pos v : Nat} (hv : v < 2 ^ n)
    (h : carries b pos (fieldBits n v) = true) : getBits b pos n = some (v, pos + n) := by
  induction n generalizing pos v with
  | zero =>
    obtain rfl : v = 0 := by omega
    rfl
  | succ n ih =>
    obtain ⟨hbit, hrest⟩ := carries_cons.mp h
    have hhalf : v / 2 < 2 ^ n := by rw [Nat.pow_succ] at hv; omega
    have hparity : (v.testBit 0).toNat + 2 * (v / 2) = v := by rw [Nat.toNat_testBit]; omega
    rw [getBits, hbit]
    simp only [ih hhalf hrest, hparity, Nat.add_assoc, Nat.add_comm 1]

theorem readBits_of_carries {b : Bytes} {n pos v : Nat} (hv : v < 2 ^ n)
    (h : carries b pos (fieldBits n v) = true) : readBits b pos n = .ok (v, pos + n) := by
  rw [readBits, getBits_of_carries hv h]

/-- Reading one bit. -/
theorem readBits_one {b : Bytes} {pos : Nat} {bit : Bool} (h : bitAt b pos = some bit) :
    readBits b pos 1 = .ok (bit.toNat, pos + 1) := by
  rw [readBits, getBits, h]
  rfl

/-- Bit `k` of a field stands `k` places behind the field's start. -/
theorem bitAt_of_carries {b : Bytes} {n k pos v : Nat} (hk : k < n)
    (h : carries b pos (fieldBits n v) = true) : bitAt b (pos + k) = some (v.testBit k) := by
  induction n generalizing k pos v with
  | zero => omega
  | succ n ih =>
    obtain ⟨hbit, hrest⟩ := carries_cons.mp h
    cases k with
    | zero => exact hbit
    | succ k => rw [← Nat.add_assoc, Nat.add_right_comm, ih (by omega) hrest, Nat.testBit_div_two]

theorem bitAt_of_getElem? {b : Bytes} {p k : Nat} {x : Byte} (hk : k < 8) (hx : b[p]? = some x) :
    bitAt b (8 * p + k) = some (x.getLsbD k) := by
  have hbyte : (8 * p + k) / 8 = p := by omega
  have hbit : (8 * p + k) % 8 = k := by omega
  rw [bitAt, hbyte, hbit, hx, Option.map_some]

/-- A stream that carries a byte's bits at a byte position has the byte there. -/
theorem getElem?_of_carries {b : Bytes} {p : Nat} {x : Byte}
    (h : carries b (8 * p) (fieldBits 8 x.toNat) = true) : b[p]? = some x := by
  have hlt : p < b.length := by
    have := lt_of_bitAt (bitAt_of_carries (k := 0) (by omega) h)
    omega
  have hget : b[p]? = some b[p] := List.getElem?_eq_getElem hlt
  rw [hget, Option.some.injEq]
  refine BitVec.eq_of_getLsbD_eq fun k hk => ?_
  have hbits := (bitAt_of_getElem? hk hget).symm.trans (bitAt_of_carries hk h)
  rwa [Option.some.injEq, BitVec.testBit_toNat] at hbits

end Sys2Proof
end

section
/-! SUPPORT. Canonical Huffman codes (30_encoding.md R116; 42_inflate.md R220, R221): `decode` reads back the code
of any symbol of any table whose code is not over-subscribed, and then the tokens of a fixed-Huffman block. -/

namespace Sys2Proof

/-! ## Codes of a canonical code -/

/-- The code found is at least as long as the first length tried, and no smaller than the first code of its length
that the codes before it leave. -/
theorem le_of_codeAt {cs : List Nat} {l first p len v : Nat} (h : codeAt cs l first p = some (len, v)) :
    l ≤ len ∧ first * 2 ^ (len - l) ≤ v := by
  induction cs generalizing l first p with
  | nil => exact absurd h nofun
  | cons c cs ih =>
    rw [codeAt] at h
    split at h
    · obtain ⟨rfl, rfl⟩ : l = len ∧ first + p = v := by simpa using h
      simp
    · obtain ⟨hlen, hv⟩ := ih h
      obtain ⟨k, rfl⟩ := Nat.exists_eq_add_of_le hlen
      have hk : l + 1 + k - (l + 1) = k := by omega
      have hk' : l + 1 + k - l = k + 1 := by omega
      rw [hk] at hv
      refine ⟨by omega, ?_⟩
      calc first * 2 ^ (l + 1 + k - l)
          _ = 2 * first * 2 ^ k := by rw [hk']; ring
          _ ≤ 2 * (first + c) * 2 ^ k := by gcongr; omega
          _ ≤ v := hv

/-- Without over-subscription every code fits its length: `left` counts half the codes of length `l` that are
still free. -/
theorem codeAt_lt {cs : List Nat} {l first p len v : Nat} {left : Int}
    (hleft : 2 * left = 2 ^ l - (first : Int)) (hnonneg : 0 ≤ leftOver cs left)
    (h : codeAt cs l first p = some (len, v)) : v < 2 ^ len := by
  induction cs generalizing l first p left with
  | nil => exact absurd h nofun
  | cons c cs ih =>
    rw [leftOver] at hnonneg
    split at hnonneg
    · omega
    · rw [codeAt] at h
      split at h
      · obtain ⟨rfl, rfl⟩ : l = len ∧ first + p = v := by simpa using h
        zify
        omega
      · refine ih (left := 2 * left - c) ?_ hnonneg h
        push_cast
        rw [pow_succ]
        linarith

/-- A code behind those of the first length is sought among the longer ones. -/
theorem codeAt_cons_of_le {c : Nat} {cs : List Nat} {l first p len v : Nat} (hp : c ≤ p)
    (h : codeAt (c :: cs) l first p = some (len, v)) : codeAt cs (l + 1) (2 * (first + c)) (p - c) = some (len, v) := by
  rwa [codeAt, if_neg (by omega)] at h

/-! ## Reading a code -/

/-- What the bit-by-bit reader makes of a code: `code` holds twice the bits of it read so far, and the symbol stands
`p` places behind those of the lengths tried. -/
theorem huffDecodeFrom_of_codeAt {t : Huff} {b : Bytes} {s : Nat} {cs : List Nat} {l first p len v pos index : Nat}
    (h : codeAt cs l first p = some (len, v)) (hs : t.symbol[index + p]? = some s)
    (hbits : carries b pos (codeBits (len + 1 - l) v) = true) :
    huffDecodeFrom t b cs pos (2 * (v / 2 ^ (len + 1 - l))) first index = .ok (s, pos + (len + 1 - l)) := by
  induction cs generalizing l first p pos index with
  | nil => exact absurd h nofun
  | cons c cs ih =>
    obtain ⟨k, rfl⟩ := Nat.exists_eq_add_of_le (le_of_codeAt h).1
    have hk : l + k + 1 - l = k + 1 := by omega
    rw [hk, codeBits_succ] at hbits
    obtain ⟨hbit, hrest⟩ := carries_cons.mp hbits
    have hcode : 2 * (v / 2 ^ (k + 1)) + (v.testBit k).toNat = v / 2 ^ k := by
      rw [Nat.toNat_testBit, Nat.pow_succ, ← Nat.div_div_eq_div_mul]
      omega
    rw [hk, huffDecodeFrom, hbit]
    simp only [hcode]
    by_cases hp : p < c
    · rw [codeAt, if_pos hp] at h
      obtain ⟨hlen, rfl⟩ : l = l + k ∧ first + p = v := by simpa using h
      obtain rfl : k = 0 := by omega
      rw [Nat.pow_zero, Nat.div_one, if_pos (by omega), Nat.add_sub_cancel_left, hs]
    · have hnext := codeAt_cons_of_le (by omega) h
      obtain ⟨hlen, hv⟩ := le_of_codeAt hnext
      obtain ⟨j, rfl⟩ : ∃ j, k = j + 1 := ⟨k - 1, by omega⟩
      have hj : l + (j + 1) - (l + 1) = j := by omega
      have hj' : l + (j + 1) + 1 - (l + 1) = j + 1 := by omega
      have hge : first + c ≤ v / 2 ^ (j + 1) := by
        rw [Nat.le_div_iff_mul_le (by positivity)]
        calc (first + c) * 2 ^ (j + 1)
            _ = 2 * (first + c) * 2 ^ j := by ring
            _ ≤ v := by rwa [hj] at hv
      have hsym : t.symbol[index + c + (p - c)]? = some s := by rwa [Nat.add_assoc, Nat.add_sub_of_le (by omega)]
      rw [if_neg (by omega), ← hj', ih hnext hsym (by rwa [hj']), Nat.add_assoc, Nat.add_comm 1]

/-- Is the code not over-subscribed, that is, do its codes fit their lengths (R220)? -/
def Huff.fits (t : Huff) : Prop := 0 ≤ leftOver ((t.count.drop 1).take 15) 1

/-- Decoding a symbol's code under any table that is not over-subscribed gives the symbol. -/
theorem huffDecode_of_symbolBits {t : Huff} (ht : t.fits) {b : Bytes} {s pos : Nat} {bits : List Bool}
    (h : symbolBits t s = some bits) (hbits : carries b pos bits = true) :
    huffDecode t b pos = .ok (s, pos + bits.length) := by
  rw [symbolBits] at h
  split at h
  · next hmem =>
    obtain ⟨⟨len, v⟩, hcode, rfl⟩ := Option.map_eq_some_iff.mp h
    have hlen : len + 1 - 1 = len := Nat.add_sub_cancel len 1
    have hsym : t.symbol[0 + t.symbol.idxOf s]? = some s := by
      rw [Nat.zero_add, List.getElem?_eq_getElem (List.idxOf_lt_length_of_mem hmem), List.getElem_idxOf]
    have hlt : v < 2 ^ len := codeAt_lt (by norm_num) ht hcode
    have hread := huffDecodeFrom_of_codeAt hcode hsym (by rwa [hlen])
    rw [hlen, Nat.div_eq_of_lt hlt] at hread
    rw [length_codeBits]
    exact hread
  · exact absurd h nofun

/-! ## The fixed tables -/

/-- The counts of the lengths 1 to 15 (R117): 24 codes of 7 bits, 152 of 8 and 112 of 9. -/
theorem fixedLencode_counts : (fixedLencode.count.drop 1).take 15 = [0, 0, 0, 0, 0, 0, 24, 152, 112, 0, 0, 0, 0, 0, 0] := by
  simp [fixedLencode, huffOf, countLengths, fixedLitLengths, List.count_append, List.count_replicate, List.range_succ,
    -List.reduceReplicate]

theorem fixedLencode_fits : fixedLencode.fits := by
  rw [Huff.fits, fixedLencode_counts]
  decide

theorem fixedDistcode_counts : (fixedDistcode.count.drop 1).take 15 = [0, 0, 0, 0, 30, 0, 0, 0, 0, 0, 0, 0, 0, 0, 0] := by
  simp [fixedDistcode, huffOf, countLengths, List.count_replicate, List.range_succ, -List.reduceReplicate]

theorem fixedDistcode_fits : fixedDistcode.fits := by
  rw [Huff.fits, fixedDistcode_counts]
  decide

/-! ## Tokens of a compressed block -/

theorem decodeBlockToken_literal {lencode distcode : Huff} {b : Bytes} {pos next : Nat} {x : Byte}
    (h : huffDecode lencode b pos = .ok (x.toNat, next)) :
    decodeBlockToken lencode distcode b pos = .ok (.dfLit x, next) := by
  simp [decodeBlockToken, h, bind, Except.bind, x.isLt]

theorem decodeBlockToken_end {lencode distcode : Huff} {b : Bytes} {pos next : Nat}
    (h : huffDecode lencode b pos = .ok (256, next)) :
    decodeBlockToken lencode distcode b pos = .ok (.dfEob, next) := by
  simp [decodeBlockToken, h, bind, Except.bind]

/-- A copy is read in four parts: a length symbol, its extra bits, a distance symbol and its extra bits. -/
theorem decodeBlockToken_copy {lencode distcode : Huff} {b : Bytes} {l le d de pos p₁ p₂ p₃ p₄ : Nat}
    (hlow : 257 ≤ l) (hhigh : l ≤ 285) (hd : d < 30)
    (hl : huffDecode lencode b pos = .ok (l, p₁))
    (hle : readBits b p₁ (lengthExtraBits.getD (l - 257) 0) = .ok (le, p₂))
    (hdist : huffDecode distcode b p₂ = .ok (d, p₃))
    (hde : readBits b p₃ (distExtraBits.getD d 0) = .ok (de, p₄)) :
    decodeBlockToken lencode distcode b pos = .ok (.dfLen l le d de, p₄) := by
  have hnotLit : ¬ l < 256 := by omega
  have hnotEnd : l ≠ 256 := by omega
  simp only [decodeBlockToken, hl, hle, hdist, hde, bind, Except.bind, hnotLit, hnotEnd, if_false, hhigh.not_gt,
    hd.not_ge]

theorem wfDfLen_iff {l le d de : Nat} : wfDfLen l le d de = true ↔ 257 ≤ l ∧ l ≤ 285 ∧
    le < 2 ^ lengthExtraBits.getD (l - 257) 0 ∧ d < 30 ∧ de < 2 ^ distExtraBits.getD d 0 := by
  simp only [wfDfLen, Bool.and_eq_true, decide_eq_true_eq, and_assoc]

theorem tokenBits_literal (lencode distcode : Huff) (x : Byte) :
    tokenBits lencode distcode (.dfLit x) = symbolBits lencode x.toNat := rfl

theorem tokenBits_end (lencode distcode : Huff) : tokenBits lencode distcode .dfEob = symbolBits lencode 256 := rfl

/-- The bits of a copy are those of its four parts. -/
theorem tokenBits_copy {lencode distcode : Huff} {l le d de : Nat} {bits : List Bool}
    (h : tokenBits lencode distcode (.dfLen l le d de) = some bits) :
    ∃ lbits dbits, symbolBits lencode l = some lbits ∧ symbolBits distcode d = some dbits ∧
      bits = lbits ++ fieldBits (lengthExtraBits.getD (l - 257) 0) le ++ dbits ++
        fieldBits (distExtraBits.getD d 0) de := by
  rw [tokenBits] at h
  split at h
  · next lbits dbits hl hd => exact ⟨lbits, dbits, hl, hd, (Option.some.inj h).symm⟩
  · exact absurd h nofun

/-- The round trip of a copy, under any two tables that are not over-subscribed. -/
theorem decodeBlockToken_of_carries_copy {lencode distcode : Huff} (hlen : lencode.fits) (hdist : distcode.fits)
    {b : Bytes} {l le d de pos : Nat} {bits : List Bool} (hwf : wfDfLen l le d de = true)
    (htok : tokenBits lencode distcode (.dfLen l le d de) = some bits) (hbits : carries b pos bits = true) :
    decodeBlockToken lencode distcode b pos = .ok (.dfLen l le d de, pos + bits.length) := by
  obtain ⟨hlow, hhigh, hle, hd, hde⟩ := wfDfLen_iff.mp hwf
  obtain ⟨lbits, dbits, hl, hdsym, rfl⟩ := tokenBits_copy htok
  simp only [carries_append, List.length_append, length_fieldBits, and_assoc, ← Nat.add_assoc] at hbits
  obtain ⟨hcl, hcle, hcd, hcde⟩ := hbits
  have hread := decodeBlockToken_copy hlow hhigh hd (huffDecode_of_symbolBits hlen hl hcl)
    (readBits_of_carries hle hcle) (huffDecode_of_symbolBits hdist hdsym hcd) (readBits_of_carries hde hcde)
  simpa only [List.length_append, length_fieldBits, ← Nat.add_assoc] using hread

/-- Settles O52: a literal and an end of block are one symbol, a copy four parts. -/
theorem fixedBlockRoundTrip : Obligations.FixedBlockRoundTrip := by
  intro i b pos bits hi hwf htok hbits
  obtain ⟨x, rfl⟩ | rfl | ⟨l, le, d, de, rfl⟩ := hi
  · rw [tokenBits_literal] at htok
    exact decodeBlockToken_literal (huffDecode_of_symbolBits fixedLencode_fits htok hbits)
  · rw [tokenBits_end] at htok
    exact decodeBlockToken_end (huffDecode_of_symbolBits fixedLencode_fits htok hbits)
  · exact decodeBlockToken_of_carries_copy fixedLencode_fits fixedDistcode_fits hwf htok hbits

/-- The hypotheses of `fixedBlockRoundTrip` hold of a copy with extra bits in both parts. -/
theorem decodeBlockToken_copy_bytes :
    decodeBlockToken fixedLencode fixedDistcode [0xC8, 0x24] 0 = .ok (.dfLen 265 1 4 1, 14) :=
  fixedBlockRoundTrip (.dfLen 265 1 4 1) [0xC8, 0x24] 0
    [false, false, false, true, false, false, true, true, false, false, true, false, false, true]
    (.inr (.inr ⟨265, 1, 4, 1, rfl⟩)) (by decide +kernel) (by decide +kernel) (by decide +kernel)

end Sys2Proof
end

section
/-! SUPPORT. The tokens of the new script format (30_encoding.md R131 to R134): the unary run and the length chain
as the reader sees them, then each token. -/

namespace Sys2Proof

/-! ## The parts of a token -/

/-- A run of `u` ones and a zero is read as `u` more than was counted before it. -/
theorem readUnary_of_carries {b : Bytes} {left pos u : Nat} (n : Nat) (hu : u ≤ left)
    (h : carries b pos (List.replicate u true ++ [false]) = true) :
    readUnary b left pos n = .ok (n + u, pos + (u + 1)) := by
  induction u generalizing left pos n with
  | zero =>
    have hbit : bitAt b pos = some false := (carries_cons.mp h).1
    unfold readUnary
    rw [hbit]
    rfl
  | succ u ih =>
    obtain ⟨left, rfl⟩ : ∃ k, left = k + 1 := ⟨left - 1, by omega⟩
    rw [List.replicate_succ, List.cons_append] at h
    obtain ⟨hbit, hrest⟩ := carries_cons.mp h
    unfold readUnary
    rw [hbit]
    simp only [ih (left := left) (n + 1) (by omega) hrest, Nat.add_assoc, Nat.add_comm 1]

/-- The chain has a part for every 7 in the value and one more. -/
theorem length_chainBits {fuel n : Nat} (h : n < 7 * fuel) : (chainBits fuel n).length = 3 * (n / 7 + 1) := by
  induction fuel generalizing n with
  | zero => omega
  | succ fuel ih =>
    rw [chainBits]
    split
    · rw [List.length_append, length_fieldBits, ih (by omega)]
      omega
    · rw [length_fieldBits]
      omega

/-- Reading a chain gives its value, when the reader may read as many parts as it has. -/
theorem readChain_of_carries {b : Bytes} {fuel m n pos : Nat} (hn : n < 7 * fuel) (hm : n < 7 * m)
    (h : carries b pos (chainBits fuel n) = true) :
    readChain b m pos = .ok (n, pos + (chainBits fuel n).length) := by
  induction fuel generalizing m n pos with
  | zero => omega
  | succ fuel ih =>
    obtain ⟨m, rfl⟩ : ∃ k, m = k + 1 := ⟨m - 1, by omega⟩
    rw [chainBits] at h ⊢
    split at h
    · next hseven =>
      obtain ⟨hpart, hrest⟩ := carries_append.mp h
      rw [length_fieldBits] at hrest
      rw [if_pos hseven, readChain, readBits_of_carries (by norm_num) hpart]
      simp only [if_true, ih (by omega) (by omega : n - 7 < 7 * m) hrest, List.length_append, length_fieldBits,
        Nat.add_sub_of_le hseven, Nat.add_assoc]
    · next hlast =>
      have hne : n ≠ 7 := by omega
      rw [if_neg hlast, readChain, readBits_of_carries (by omega) h]
      simp only [hne, if_false, length_fieldBits]

/-- A stream is long enough for the reader to meet the end of a chain it carries. -/
theorem readChain_of_carries_refChain {b : Bytes} {length pos : Nat} (hlength : 3 ≤ length)
    (h : carries b pos (chainBits (length - 2) (length - 3)) = true) :
    readChain b (8 * b.length) pos = .ok (length - 3, pos + (chainBits (length - 2) (length - 3)).length) := by
  have hfuel : length - 3 < 7 * (length - 2) := by omega
  have hfit : (chainBits (length - 2) (length - 3)).length ≤ 8 * b.length := length_le_of_carries h
  rw [length_chainBits hfuel] at hfit
  exact readChain_of_carries hfuel (by omega) h

/-! ## Literals -/

/-- The unary run of an index leaves a remainder that its field can hold. -/
theorem literalPrefix_spec {index : Nat} (h : index < 256) :
    literalPrefix index ≤ 4 ∧ (2 ^ literalPrefix index - 1) * 16 ≤ index ∧
      index - (2 ^ literalPrefix index - 1) * 16 < 2 ^ (4 + literalPrefix index) := by
  unfold literalPrefix
  split_ifs <;> norm_num <;> omega

theorem decodeNewFormat_literal {b : Bytes} {pos : Nat} {x : Byte}
    (h : carries b pos (literalBits x.toNat) = true) :
    decodeNewFormat b pos = .ok (.nfLit x, pos + (literalBits x.toNat).length) := by
  obtain ⟨hle, hbase, hfield⟩ := literalPrefix_spec x.isLt
  rw [literalBits] at h ⊢
  generalize literalPrefix x.toNat = u at *
  obtain ⟨hhead, hrest⟩ := carries_cons.mp h
  obtain ⟨hunary, hbits⟩ := carries_append.mp hrest
  rw [List.length_append, List.length_replicate, List.length_singleton] at hbits
  have hindex : x.toNat - (2 ^ u - 1) * 16 + (2 ^ u - 1) * 16 = x.toNat := Nat.sub_add_cancel hbase
  have hbyte : ¬ 255 < x.toNat := by have := x.isLt; omega
  have hend : pos + (true :: (List.replicate u true ++ [false] ++
      fieldBits (4 + u) (x.toNat - (2 ^ u - 1) * 16))).length = pos + 1 + (u + 1) + (4 + u) := by
    simp only [List.length_cons, List.length_append, List.length_replicate, List.length_nil, length_fieldBits]
    omega
  rw [hend]
  simp [decodeNewFormat, bind, Except.bind, readBits_one hhead, readUnary_of_carries 0 hle hunary,
    readBits_of_carries hfield hbits, hindex, hbyte]

/-! ## References and the raw run -/

/-- The offset field and the length chain of a reference, behind its selector. -/
theorem readRef_of_carries {b : Bytes} {width field length pos : Nat} (hfield : field < 2 ^ width)
    (hlength : 3 ≤ length)
    (h : carries b pos (fieldBits width field ++ chainBits (length - 2) (length - 3)) = true) :
    readBits b pos width = .ok (field, pos + width) ∧
      readChain b (8 * b.length) (pos + width) =
        .ok (length - 3, pos + width + (chainBits (length - 2) (length - 3)).length) := by
  obtain ⟨hoffset, hchain⟩ := carries_append.mp h
  rw [length_fieldBits] at hchain
  exact ⟨readBits_of_carries hfield hoffset, readChain_of_carries_refChain hlength hchain⟩

/-- The position behind a reference, in the order its parts are read. -/
theorem pos_add_length_refBits (pos : Nat) (selector : List Bool) (width field length : Nat) :
    pos + (refBits selector width field length).length =
      pos + 1 + selector.length + width + (chainBits (length - 2) (length - 3)).length := by
  simp only [refBits, List.length_cons, List.length_append, length_fieldBits]
  omega

/-- The bits of a reference: the header bit, the selector, then the fields. -/
theorem carries_refBits {b : Bytes} {pos : Nat} {selector : List Bool} {width field length : Nat} :
    carries b pos (refBits selector width field length) = true ↔
      bitAt b pos = some false ∧ carries b (pos + 1) selector = true ∧
        carries b (pos + 1 + selector.length) (fieldBits width field ++ chainBits (length - 2) (length - 3)) = true := by
  rw [refBits, List.append_assoc, carries_cons, carries_append]

theorem decodeNewFormat_ref15 {b : Bytes} {pos length : Nat} {f : BitVec 15} (hlength : 3 ≤ length)
    (h : carries b pos (refBits [false] 15 f.toNat length) = true) :
    decodeNewFormat b pos = .ok (.nfRef15 f length, pos + (refBits [false] 15 f.toNat length).length) := by
  obtain ⟨hhead, hsel, hrest⟩ := carries_refBits.mp h
  have hs0 := readBits_one (carries_cons.mp hsel).1
  obtain ⟨hfield, hchain⟩ := readRef_of_carries f.isLt hlength hrest
  rw [List.length_singleton] at hfield hchain
  rw [pos_add_length_refBits, List.length_singleton]
  simp [decodeNewFormat, bind, Except.bind, readBits_one hhead, hs0, hfield, hchain, Nat.add_sub_of_le hlength]

/-- The two bits of a long selector. -/
theorem readBits_one_of_carries_pair {b : Bytes} {pos : Nat} {x y : Bool} (h : carries b pos [x, y] = true) :
    readBits b pos 1 = .ok (x.toNat, pos + 1) ∧ readBits b (pos + 1) 1 = .ok (y.toNat, pos + 2) := by
  obtain ⟨hx, hrest⟩ := carries_cons.mp h
  exact ⟨readBits_one hx, readBits_one (carries_cons.mp hrest).1⟩

theorem length_longSelector (x y : Bool) : [x, y].length = 2 := rfl

/-- A 10-bit field other than 0 is a reference's; 0 is the raw run's. -/
theorem decodeNewFormat_ref10 {b : Bytes} {pos length : Nat} {f : BitVec 10} (hlength : 3 ≤ length) (hf : f ≠ 0)
    (h : carries b pos (refBits [true, false] 10 f.toNat length) = true) :
    decodeNewFormat b pos = .ok (.nfRef10 f length, pos + (refBits [true, false] 10 f.toNat length).length) := by
  obtain ⟨hhead, hsel, hrest⟩ := carries_refBits.mp h
  obtain ⟨hs0, hs1⟩ := readBits_one_of_carries_pair hsel
  obtain ⟨hfield, hchain⟩ := readRef_of_carries f.isLt hlength hrest
  have hne : f.toNat ≠ 0 := fun h0 => hf (BitVec.eq_of_toNat_eq h0)
  rw [length_longSelector] at hfield hchain
  rw [pos_add_length_refBits, length_longSelector]
  simp [decodeNewFormat, bind, Except.bind, readBits_one hhead, hs0, hs1, hfield, hchain, hne,
    Nat.add_sub_of_le hlength]

theorem decodeNewFormat_ref5 {b : Bytes} {pos length : Nat} {f : BitVec 5} (hlength : 3 ≤ length)
    (h : carries b pos (refBits [true, true] 5 f.toNat length) = true) :
    decodeNewFormat b pos = .ok (.nfRef5 f length, pos + (refBits [true, true] 5 f.toNat length).length) := by
  obtain ⟨hhead, hsel, hrest⟩ := carries_refBits.mp h
  obtain ⟨hs0, hs1⟩ := readBits_one_of_carries_pair hsel
  obtain ⟨hfield, hchain⟩ := readRef_of_carries f.isLt hlength hrest
  rw [length_longSelector] at hfield hchain
  rw [pos_add_length_refBits, length_longSelector]
  simp [decodeNewFormat, bind, Except.bind, readBits_one hhead, hs0, hs1, hfield, hchain, Nat.add_sub_of_le hlength]

theorem decodeNewFormat_raw {b : Bytes} {pos : Nat}
    (h : carries b pos (false :: ([true, false] ++ fieldBits 10 0)) = true) :
    decodeNewFormat b pos = .ok (.nfRaw, pos + 13) := by
  obtain ⟨hhead, hrest⟩ := carries_cons.mp h
  obtain ⟨hsel, hzero⟩ := carries_append.mp hrest
  obtain ⟨hs0, hs1⟩ := readBits_one_of_carries_pair hsel
  have hfield := readBits_of_carries (by norm_num) hzero
  rw [length_longSelector] at hfield
  simp [decodeNewFormat, bind, Except.bind, readBits_one hhead, hs0, hs1, hfield]

theorem wfCopyLength_iff {length : Nat} : wfCopyLength length = true ↔ 3 ≤ length := decide_eq_true_iff

theorem wf_nfRef10_iff {f : BitVec 10} {length : Nat} :
    (Instr.nfRef10 f length).wf = true ↔ f ≠ 0 ∧ 3 ≤ length := by
  rw [Instr.wf, Bool.and_eq_true, wfRef10Field, bne_iff_ne, wfCopyLength_iff]

/-- Settles O51: each of the five tokens by its parts. -/
theorem newFormatRoundTrip : Obligations.NewFormatRoundTrip := by
  intro i b pos bits hi hwf htok hbits
  obtain ⟨x, rfl⟩ | ⟨f, n, rfl⟩ | ⟨f, n, rfl⟩ | ⟨f, n, rfl⟩ | rfl := hi
  all_goals obtain rfl := Option.some.inj htok
  · exact decodeNewFormat_literal hbits
  · exact decodeNewFormat_ref15 (wfCopyLength_iff.mp hwf) hbits
  · obtain ⟨hf, hn⟩ := wf_nfRef10_iff.mp hwf
    exact decodeNewFormat_ref10 hn hf hbits
  · exact decodeNewFormat_ref5 (wfCopyLength_iff.mp hwf) hbits
  · exact decodeNewFormat_raw hbits

/-- The hypotheses of `newFormatRoundTrip` hold of a reference whose bits begin inside a byte. -/
theorem decodeNewFormat_ref5_bytes : decodeNewFormat [0x2C, 0x06] 1 = .ok (.nfRef5 2 6, 12) :=
  newFormatRoundTrip (.nfRef5 2 6) [0x2C, 0x06] 1 (refBits [true, true] 5 2 6)
    (.inr (.inr (.inr (.inl ⟨2, 6, rfl⟩)))) rfl rfl (by decide)

end Sys2Proof
end

section
/-! SUPPORT. Block headers, filter bytes and legacy script codes (30_encoding.md R112, R124, R135). -/

namespace Sys2Proof

/-! ## Block headers -/

/-- The header instruction of each value of BTYPE (R113). -/
def headerInstr (final : Bool) : Nat → Instr
  | 0 => .dfStored final
  | 1 => .dfFixed final
  | 2 => .dfDynamic final
  | _ => .dfReserved final

/-- The decoder answers the header instruction of the two fields it reads. -/
theorem decodeBlockHeader_of_carries {b : Bytes} {pos btype : Nat} {final : Bool} (hbtype : btype < 4)
    (h : carries b pos (headerBits final btype) = true) :
    decodeBlockHeader b pos = .ok (headerInstr final btype, pos + 3) := by
  obtain ⟨hfinal, hrest⟩ := carries_cons.mp h
  have hflag : (final.toNat == 1) = final := by cases final <;> rfl
  have htype : readBits b (pos + 1) 2 = .ok (btype, pos + 3) := readBits_of_carries hbtype hrest
  simp only [decodeBlockHeader, bind, Except.bind, readBits_one hfinal, htype, hflag]
  interval_cases btype <;> rfl

/-! ## Legacy codes -/

/-- Two bytes in a row. -/
theorem getElem?_pair_of_carries {b : Bytes} {p : Nat} {x y : Byte}
    (h : carries b (8 * p) (fieldBits 8 x.toNat ++ fieldBits 8 y.toNat) = true) :
    b[p]? = some x ∧ b[p + 1]? = some y := by
  obtain ⟨hx, hy⟩ := carries_append.mp h
  exact ⟨getElem?_of_carries hx, getElem?_of_carries hy⟩

theorem decodeLegacy_escape {b : Bytes} {p : Nat} {x : Byte}
    (h : carries b (8 * p) (fieldBits 8 (0 : Byte).toNat ++ fieldBits 8 x.toNat) = true) :
    decodeLegacy b p = .ok (.lgEsc x, p + 2) := by
  obtain ⟨hzero, hx⟩ := getElem?_pair_of_carries h
  simp only [decodeLegacy, hzero, hx]
  rfl

theorem decodeLegacy_symbol {b : Bytes} {p : Nat} {x : Byte} (hwf : wfLgSym x = true)
    (h : carries b (8 * p) (fieldBits 8 x.toNat) = true) : decodeLegacy b p = .ok (.lgSym x, p + 1) := by
  obtain ⟨hlow, hhigh⟩ : 1 ≤ x.toNat ∧ x.toNat ≤ 0x3B := by simpa [wfLgSym] using hwf
  have hne : x.toNat ≠ 0 := by omega
  simp only [decodeLegacy, getElem?_of_carries h, hne, hhigh, if_false, if_true]

theorem decodeLegacy_reference {b : Bytes} {p : Nat} {x y : Byte} (hwf : wfLgRef x = true)
    (h : carries b (8 * p) (fieldBits 8 x.toNat ++ fieldBits 8 y.toNat) = true) :
    decodeLegacy b p = .ok (.lgRef x y, p + 2) := by
  have hlow : 0x3C ≤ x.toNat := of_decide_eq_true hwf
  obtain ⟨hx, hy⟩ := getElem?_pair_of_carries h
  have hne : x.toNat ≠ 0 := by omega
  have hnot : ¬ x.toNat ≤ 0x3B := by omega
  simp only [decodeLegacy, hx, hy, hne, hnot, if_false]

/-! ## The three families -/

theorem blockHeaderRoundTrip {b : Bytes} {pos : Nat} {i : Instr} {bits : List Bool}
    (hi : (∃ f, i = .dfStored f) ∨ (∃ f, i = .dfFixed f) ∨ (∃ f, i = .dfDynamic f) ∨ (∃ f, i = .dfReserved f))
    (htok : tokenBits fixedLencode fixedDistcode i = some bits) (hbits : carries b pos bits = true) :
    decodeBlockHeader b pos = .ok (i, pos + 3) := by
  obtain ⟨f, rfl⟩ | ⟨f, rfl⟩ | ⟨f, rfl⟩ | ⟨f, rfl⟩ := hi
  all_goals
    obtain rfl := Option.some.inj htok
    exact decodeBlockHeader_of_carries (by norm_num) hbits

theorem filterByteRoundTrip {i : Instr}
    (hi : i = .fltNone ∨ i = .fltSub ∨ i = .fltUp ∨ i = .fltAvg ∨ i = .fltPaeth) :
    ∃ ft, decodeFilter ft = .ok i ∧ tokenBits fixedLencode fixedDistcode i = some (fieldBits 8 ft) := by
  obtain rfl | rfl | rfl | rfl | rfl := hi
  · exact ⟨0, rfl, rfl⟩
  · exact ⟨1, rfl, rfl⟩
  · exact ⟨2, rfl, rfl⟩
  · exact ⟨3, rfl, rfl⟩
  · exact ⟨4, rfl, rfl⟩

theorem legacyCodeRoundTrip {b : Bytes} {p : Nat} {i : Instr} {bits : List Bool}
    (hi : (∃ x, i = .lgEsc x) ∨ (∃ x, i = .lgSym x) ∨ (∃ x y, i = .lgRef x y)) (hwf : i.wf = true)
    (htok : tokenBits fixedLencode fixedDistcode i = some bits) (hbits : carries b (8 * p) bits = true) :
    decodeLegacy b p = .ok (i, p + bits.length / 8) := by
  obtain ⟨x, rfl⟩ | ⟨x, rfl⟩ | ⟨x, y, rfl⟩ := hi
  all_goals
    obtain rfl := Option.some.inj htok
    simp only [List.length_append, length_fieldBits]
  · exact decodeLegacy_escape hbits
  · exact decodeLegacy_symbol hwf hbits
  · exact decodeLegacy_reference hwf hbits

/-- Settles O53: the three families, one by one. -/
theorem byteTokenRoundTrip : Obligations.ByteTokenRoundTrip := by
  intro b pos
  exact ⟨fun _ _ hi htok hbits => blockHeaderRoundTrip hi htok hbits, fun _ hi => filterByteRoundTrip hi,
    fun _ _ hi hwf htok hbits => legacyCodeRoundTrip hi hwf htok hbits⟩

/-- The hypotheses of `byteTokenRoundTrip` hold of a header that begins inside a byte and of a legacy reference at the
second byte; its part about filter bytes has none but the choice of the filter. -/
theorem decode_header_and_reference_bytes :
    decodeBlockHeader [0x0A] 1 = .ok (.dfDynamic true, 4) ∧
      decodeLegacy [0x00, 0x3C, 0x25] 1 = .ok (.lgRef 0x3C 0x25, 3) := by
  obtain ⟨hheader, -, -⟩ := byteTokenRoundTrip [0x0A] 1
  obtain ⟨-, -, hlegacy⟩ := byteTokenRoundTrip [0x00, 0x3C, 0x25] 1
  exact ⟨hheader (.dfDynamic true) (headerBits true 2) (.inr (.inr (.inl ⟨true, rfl⟩))) rfl (by decide),
    hlegacy (.lgRef 0x3C 0x25) (fieldBits 8 0x3C ++ fieldBits 8 0x25) (.inr (.inr ⟨_, _, rfl⟩)) rfl rfl (by decide)⟩

end Sys2Proof
end

section
/-! SUPPORT. The command port (30_encoding.md R100, R101, R156): the presence mask, the decoder over one row of the
opcode map, and the commands encoded and decoded again. -/

namespace Sys2Proof

/-! ## The presence mask -/

theorem presenceMask_lt (os : List Operand) : presenceMask os < 2 ^ os.length := by
  induction os with
  | nil => exact Nat.one_pos
  | cons o os ih =>
    have hbit : o.isSome.toNat < 2 := Bool.toNat_lt _
    rw [presenceMask, List.length_cons, Nat.pow_succ]
    omega

theorem testBit_presenceMask (os : List Operand) (k : Nat) :
    (presenceMask os).testBit k = (os.getD k none).isSome := by
  induction os generalizing k with
  | nil => simp [presenceMask]
  | cons o os ih =>
    have hlt : o.isSome.toNat < 2 := Bool.toNat_lt _
    rw [presenceMask]
    cases k with
    | zero => cases o <;> simp
    | succ k =>
      have hhalf : (o.isSome.toNat + 2 * presenceMask os) / 2 = presenceMask os := by omega
      rw [Nat.testBit_succ, hhalf, ih, List.getD_cons_succ]

/-- The decoder's operand of every slot is the one encoded, supplied or not. -/
theorem slotOperand_encoded (os : List Operand) :
    slotOperand (presenceMask os) (os.map fun o => o.getD 0) = fun k => os.getD k none := by
  funext k
  rw [slotOperand, testBit_presenceMask, List.getD_eq_getElem?_getD, List.getD_eq_getElem?_getD, List.getElem?_map]
  cases os[k]? with
  | none => rfl
  | some o => cases o <;> rfl

/-! ## The decoder -/

/-- A request that is in order decodes by its opcode's row. -/
theorem decodeCommand_of_row {h : Word} {ops : List Word} {d : DataIn} {row : OpRow} {i : Instr}
    (hzero : headerZero h = 0) (hrow : opRow (headerOpcode h) = some row) (hmask : headerMask h / 2 ^ row.slots = 0)
    (hlen : row.slots ≤ ops.length) (hbuild : row.build (slotOperand (headerMask h) ops) d = i) :
    decodeCommand ⟨h :: ops, d⟩ = .ok i := by
  subst hbuild
  simp only [decodeCommand, hzero, hrow, hmask, hlen.not_gt, ne_eq, not_true_eq_false, if_false]

/-- The fields of a header word made of an opcode and a presence mask (R100). -/
theorem header_fields {op pmask : Nat} (hop : op < 256) (hpmask : pmask < 65536) :
    headerOpcode (BitVec.ofNat 32 (op + 65536 * pmask)) = op ∧
      headerZero (BitVec.ofNat 32 (op + 65536 * pmask)) = 0 ∧
      headerMask (BitVec.ofNat 32 (op + 65536 * pmask)) = pmask := by
  have hfit : op + 65536 * pmask < 2 ^ 32 := by omega
  rw [headerOpcode, headerZero, headerMask, BitVec.toNat_ofNat, Nat.mod_eq_of_lt hfit]
  omega

/-! ## Commands encoded and decoded again -/

/-- The row of the opcode map rebuilds the command from its operands and its data port content. -/
structure RebuildsAs (op : Nat) (i : Instr) (row : OpRow) : Prop where
  opcode_lt : op < 256
  row_eq : opRow op = some row
  slots_eq : row.slots = i.operands.length
  slots_le : row.slots ≤ 16
  build_eq : row.build (fun k => i.operands.getD k none) i.dataPort = i

/-- Every command is rebuilt by its opcode's row; the row is found by evaluating the map at the opcode. -/
theorem exists_rebuildsAs {i : Instr} {op : Nat} (h : i.opcode = some op) : ∃ row, RebuildsAs op i row := by
  cases i with
  | dfStored | dfFixed | dfDynamic | dfReserved | dfLit | dfEob | dfLen => exact absurd h nofun
  | fltNone | fltSub | fltUp | fltAvg | fltPaeth => exact absurd h nofun
  | nfLit | nfRef15 | nfRef10 | nfRef5 | nfRaw => exact absurd h nofun
  | lgEsc | lgSym | lgRef | rawScript => exact absurd h nofun
  | _ =>
    obtain rfl := Option.some.inj h
    exact ⟨_, Nat.le_of_ble_eq_true rfl, rfl, rfl, Nat.le_of_ble_eq_true rfl, rfl⟩

/-- What a row rebuilds from the encoding is the command. -/
theorem RebuildsAs.decode_encode {op : Nat} {i : Instr} {row : OpRow} (h : RebuildsAs op i row) :
    decodeCommand (encodeCommand op i) = .ok i := by
  have hpmask : presenceMask i.operands < 2 ^ row.slots := h.slots_eq ▸ presenceMask_lt i.operands
  have hbound : 2 ^ row.slots ≤ 2 ^ 16 := Nat.pow_le_pow_right (by norm_num) h.slots_le
  obtain ⟨hop, hzero, hmask⟩ := header_fields h.opcode_lt (show presenceMask i.operands < 65536 by omega)
  refine decodeCommand_of_row hzero (hop.symm ▸ h.row_eq) ?_ ?_ ?_
  · rw [hmask, Nat.div_eq_of_lt hpmask]
  · rw [List.length_map, h.slots_eq]
  · rw [hmask, slotOperand_encoded, h.build_eq]

/-- Settles O50: every command has a row that rebuilds it. -/
theorem commandRoundTrip : Obligations.CommandRoundTrip := by
  intro i op hop
  obtain ⟨row, hrow⟩ := exists_rebuildsAs hop
  exact hrow.decode_encode

/-- The hypothesis of `commandRoundTrip` holds of a command with a string and with operands of both kinds. -/
theorem decodeCommand_encode_text :
    decodeCommand (encodeCommand 0x43 (.text [0x41] none (some 0xFFFFFFFF) none)) =
      .ok (.text [0x41] none (some 0xFFFFFFFF) none) :=
  commandRoundTrip (.text [0x41] none (some 0xFFFFFFFF) none) 0x43 rfl

/-- Settles O54: each word list is in order for its opcode's row. -/
theorem headerWordsDecode : Obligations.HeaderWordsDecode :=
  ⟨decodeCommand_of_row rfl rfl rfl (by decide) rfl, decodeCommand_of_row rfl rfl rfl (by decide) rfl,
    decodeCommand_of_row rfl rfl rfl (by decide) rfl, decodeCommand_of_row rfl rfl rfl (by decide) rfl,
    decodeCommand_of_row rfl rfl rfl (by decide) rfl, decodeCommand_of_row rfl rfl rfl (by decide) rfl⟩

end Sys2Proof
end

section
/-! SUPPORT. What the machine takes and ignores (30_encoding.md R101, R156): a command without a required operand, and
a request whose encoding is reserved. -/

namespace Sys2Proof.Machine

/-! ## Missing operands

One lemma for each number of required operands, over the command as a function `g` of them. A command tests them in
order, so the dispatch need only be evaluated where the first missing one stands behind supplied ones; that is what the
default proofs of `h₁`, `h₂`, … do at each command. -/

theorem exec_of_missing_one (g : Operand → Instr) {s : State} {a : Operand} (h : a.isNone = true)
    (h₁ : exec (g none) s = .next s.ignored := by rfl) : exec (g a) s = .next s.ignored := by
  rwa [Option.isNone_iff_eq_none.mp h]

theorem exec_of_missing_two (g : Operand → Operand → Instr) {s : State} {a b : Operand}
    (h : (a.isNone || b.isNone) = true)
    (h₁ : ∀ b, exec (g none b) s = .next s.ignored := by intros; rfl)
    (h₂ : ∀ x, exec (g (some x) none) s = .next s.ignored := by intros; rfl) :
    exec (g a b) s = .next s.ignored := by
  cases a with
  | none => exact h₁ b
  | some x => exact exec_of_missing_one (g (some x)) h (h₂ x)

theorem exec_of_missing_three (g : Operand → Operand → Operand → Instr) {s : State} {a b c : Operand}
    (h : (a.isNone || b.isNone || c.isNone) = true)
    (h₁ : ∀ b c, exec (g none b c) s = .next s.ignored := by intros; rfl)
    (h₂ : ∀ x c, exec (g (some x) none c) s = .next s.ignored := by intros; rfl)
    (h₃ : ∀ x y, exec (g (some x) (some y) none) s = .next s.ignored := by intros; rfl) :
    exec (g a b c) s = .next s.ignored := by
  cases a with
  | none => exact h₁ b c
  | some x => exact exec_of_missing_two (g (some x)) h (h₂ x) (h₃ x)

theorem exec_of_missing_four (g : Operand → Operand → Operand → Operand → Instr) {s : State}
    {a b c d : Operand} (h : (a.isNone || b.isNone || c.isNone || d.isNone) = true)
    (h₁ : ∀ b c d, exec (g none b c d) s = .next s.ignored := by intros; rfl)
    (h₂ : ∀ x c d, exec (g (some x) none c d) s = .next s.ignored := by intros; rfl)
    (h₃ : ∀ x y d, exec (g (some x) (some y) none d) s = .next s.ignored := by intros; rfl)
    (h₄ : ∀ x y z, exec (g (some x) (some y) (some z) none) s = .next s.ignored := by intros; rfl) :
    exec (g a b c d) s = .next s.ignored := by
  cases a with
  | none => exact h₁ b c d
  | some x => exact exec_of_missing_three (g (some x)) h (h₂ x) (h₃ x) (h₄ x)

theorem exec_of_missing_six (g : Operand → Operand → Operand → Operand → Operand → Operand → Instr) {s : State}
    {a b c d e f : Operand}
    (h : (a.isNone || b.isNone || c.isNone || d.isNone || e.isNone || f.isNone) = true)
    (h₁ : ∀ b c d e f, exec (g none b c d e f) s = .next s.ignored := by intros; rfl)
    (h₂ : ∀ x c d e f, exec (g (some x) none c d e f) s = .next s.ignored := by intros; rfl)
    (h₃ : ∀ x y d e f, exec (g (some x) (some y) none d e f) s = .next s.ignored := by intros; rfl)
    (h₄ : ∀ x y z e f, exec (g (some x) (some y) (some z) none e f) s = .next s.ignored := by intros; rfl)
    (h₅ : ∀ x y z u f, exec (g (some x) (some y) (some z) (some u) none f) s = .next s.ignored := by intros; rfl)
    (h₆ : ∀ x y z u v, exec (g (some x) (some y) (some z) (some u) (some v) none) s = .next s.ignored := by
      intros; rfl) :
    exec (g a b c d e f) s = .next s.ignored := by
  cases a with
  | none => exact h₁ b c d e f
  | some x =>
    cases b with
    | none => exact h₂ x c d e f
    | some y => exact exec_of_missing_four (g (some x) (some y)) h (h₃ x y) (h₄ x y) (h₅ x y) (h₆ x y)

/-- A command that lacks a required operand is ignored; the commands by their required operands (R101). -/
theorem exec_of_lacksRequired {i : Instr} (s : State) (h : i.lacksRequired = true) : exec i s = .next s.ignored := by
  cases i with
  | read8 => exact exec_of_missing_one .read8 h
  | read16 => exact exec_of_missing_one .read16 h
  | read32 => exact exec_of_missing_one .read32 h
  | write8 => exact exec_of_missing_two .write8 h
  | write16 => exact exec_of_missing_two .write16 h
  | write32 => exact exec_of_missing_two .write32 h
  | bulkCopy => exact exec_of_missing_three .bulkCopy h
  | bulkFill => exact exec_of_missing_three .bulkFill h
  | setPixel _ _ c => exact exec_of_missing_two (.setPixel · · c) h
  | getPixel => exact exec_of_missing_two .getPixel h
  | line _ _ x1 y1 c => exact exec_of_missing_two (.line · · x1 y1 c) h
  | rect _ _ _ _ c => exact exec_of_missing_four (.rect · · · · c) h
  | rectFill _ _ _ _ c => exact exec_of_missing_four (.rectFill · · · · c) h
  | circle _ _ r c => exact exec_of_missing_two (.circle · · r c) h
  | circleFill _ _ r c => exact exec_of_missing_two (.circleFill · · r c) h
  | ellipse _ _ _ _ c => exact exec_of_missing_four (.ellipse · · · · c) h
  | ellipseFill _ _ _ _ c => exact exec_of_missing_four (.ellipseFill · · · · c) h
  | sprite _ _ _ w ht fx fy => exact exec_of_missing_three (.sprite · · · w ht fx fy) h
  | spriteScaled _ _ _ _ _ _ dw dh fx fy => exact exec_of_missing_six (.spriteScaled · · · · · · dw dh fx fy) h
  | tileMap _ _ _ _ _ _ layers => exact exec_of_missing_six (.tileMap · · · · · · layers) h
  | sfx _ channel offset => exact exec_of_missing_one (.sfx · channel offset) h
  | music => exact exec_of_missing_one .music h
  | setMasterVolume => exact exec_of_missing_one .setMasterVolume h
  | _ => exact absurd h Bool.false_ne_true

/-- Settles O5: the command is ignored, which is to answer 0 and nothing else. -/
theorem missingOperandIgnored : Obligations.MissingOperandIgnored := fun _ s h => exec_of_lacksRequired s h

/-- The hypothesis of `missingOperandIgnored` holds of a line with a first point of one coordinate, although the colour
it names is supplied. -/
theorem exec_line_without_y0 : exec (.line (some 3) none none none (some 8)) State.reset =
    .next { State.reset with result := some 0 } :=
  missingOperandIgnored (.line (some 3) none none none (some 8)) State.reset rfl

/-! ## Reserved encodings -/

/-- A rejection by which a request is taken off the ports (R156). -/
def IsReserved : Reject → Prop
  | .reservedHeaderBits | .reservedOpcode | .reservedPresence => True
  | _ => False

/-- A request rejected as reserved is taken and ignored. -/
theorem portStep_of_reserved {s : State} {r : Request} {rest : List Request} {e : Reject}
    (hport : s.port = r :: rest) (hdec : decodeCommand r = .error e) (he : IsReserved e) :
    portStep s = .next s.popPort.ignored := by
  simp only [portStep, hport, hdec]
  cases e with
  | reservedHeaderBits | reservedOpcode | reservedPresence => rfl
  | _ => exact he.elim

theorem headerZero_ne_zero {h : Word} (hbits : h.extractLsb' 8 8 ≠ (0 : Byte)) : headerZero h ≠ 0 := by
  intro hzero
  refine hbits (BitVec.eq_of_toNat_eq ?_)
  rw [BitVec.extractLsb'_toNat, Nat.shiftRight_eq_div_pow]
  exact hzero

/-- The three kinds of reserved encoding are rejected as such, whatever else is wrong with the request. -/
theorem decodeCommand_of_reserved {h : Word} (ops : List Word) (d : DataIn)
    (hres : h.extractLsb' 8 8 ≠ (0 : Byte) ∨ opRow (h.toNat % 256) = none ∨
      ∃ row, opRow (h.toNat % 256) = some row ∧ 2 ^ row.slots ≤ h.toNat / 65536) :
    ∃ e, decodeCommand ⟨h :: ops, d⟩ = .error e ∧ IsReserved e := by
  by_cases hzero : headerZero h = 0
  · obtain hbits | hnone | ⟨row, hrow, hmask⟩ := hres
    · exact absurd hzero (headerZero_ne_zero hbits)
    · refine ⟨.reservedOpcode, ?_, trivial⟩
      simp only [decodeCommand, headerOpcode, hzero, hnone, ne_eq, not_true_eq_false, if_false]
    · have hbeyond : headerMask h / 2 ^ row.slots ≠ 0 := (Nat.div_pos hmask (by positivity)).ne'
      refine ⟨.reservedPresence, ?_, trivial⟩
      simp only [decodeCommand, headerOpcode, hzero, hrow, hbeyond, ne_eq, not_true_eq_false, not_false_eq_true,
        if_false, if_true]
  · exact ⟨.reservedHeaderBits, by simp only [decodeCommand, ne_eq, hzero, not_false_eq_true, if_true], trivial⟩

/-- Settles O57: the step is the one on the ports, which takes and ignores the request. -/
theorem reservedEncodingIgnored : Obligations.ReservedEncodingIgnored := by
  intro s h ops d rest hidle hport hres
  obtain ⟨e, hdec, he⟩ := decodeCommand_of_reserved ops d hres
  calc step s
      _ = portStep s := step_of_idle hidle
      _ = .next s.popPort.ignored := portStep_of_reserved hport hdec he
      _ = .next { s with port := rest, result := some 0 } := by rw [State.popPort_eq hport]; rfl

/-- The hypotheses of `reservedEncodingIgnored` hold of a `clear` with a presence bit beyond its slot, which also lacks
its operand word. -/
theorem step_clear_with_reserved_presence :
    step { State.reset with port := [⟨[0x00020030], .empty⟩, ⟨[0x53], .empty⟩] } =
      .next { State.reset with port := [⟨[0x53], .empty⟩], result := some 0 } :=
  reservedEncodingIgnored { State.reset with port := [⟨[0x00020030], .empty⟩, ⟨[0x53], .empty⟩] } 0x00020030 [] .empty
    [⟨[0x53], .empty⟩] rfl rfl (.inr (.inr ⟨_, rfl, by decide⟩))

end Sys2Proof.Machine
end

section
/-! SUPPORT. The block commands (40_memory_ops.md R170, R172). Each stores one block from its start on: `bulk_copy` the
bytes read at the source before the store, `bulk_fill` one byte repeated. The clamped count keeps the block inside the
memory, so what it stores is read back by the law of a block store. -/

namespace Sys2Proof.Machine

/-! ## The clamped counts -/

theorem startOk_iff (a : Int) : startOk a = true ↔ 0 ≤ a ∧ a < 0x8000 := by
  simp only [startOk, Bool.and_eq_true, decide_eq_true_eq]

/-- When a `bulk_copy` moves bytes: a positive length and both starts inside the memory (R170). -/
def CopyMoves (dst src len : Int) : Prop := 0 < len ∧ 0 ≤ dst ∧ dst < 0x8000 ∧ 0 ≤ src ∧ src < 0x8000

/-- When a `bulk_fill` stores bytes: a positive length and a start inside the memory (R172). -/
def FillStores (dst len : Int) : Prop := 0 < len ∧ 0 ≤ dst ∧ dst < 0x8000

theorem copyCount_of_moves {dst src len : Int} (h : CopyMoves dst src len) :
    (copyCount dst src len : Int) = min len (min (0x8000 - dst) (0x8000 - src)) := by
  obtain ⟨hlen, hdst, hdst', hsrc, hsrc'⟩ := h
  rw [copyCount, if_pos ⟨hlen, (startOk_iff dst).mpr ⟨hdst, hdst'⟩, (startOk_iff src).mpr ⟨hsrc, hsrc'⟩⟩]
  omega

theorem copyCount_of_not_moves {dst src len : Int} (h : ¬ CopyMoves dst src len) : copyCount dst src len = 0 := by
  refine if_neg fun ⟨hlen, hdst, hsrc⟩ => h ?_
  obtain ⟨hdst, hdst'⟩ := (startOk_iff dst).mp hdst
  exact ⟨hlen, hdst, hdst', (startOk_iff src).mp hsrc⟩

theorem fillCount_of_stores {dst len : Int} (h : FillStores dst len) :
    (fillCount dst len : Int) = min len (0x8000 - dst) := by
  obtain ⟨hlen, hdst, hdst'⟩ := h
  rw [fillCount, if_pos ⟨hlen, (startOk_iff dst).mpr ⟨hdst, hdst'⟩⟩]
  omega

theorem fillCount_of_not_stores {dst len : Int} (h : ¬ FillStores dst len) : fillCount dst len = 0 :=
  if_neg fun ⟨hlen, hdst⟩ => h ⟨hlen, (startOk_iff dst).mp hdst⟩

/-! ## A block stored at an operand's address -/

/-- A byte read after a block of `k` bytes stored, inside the memory, from an operand's address on. -/
theorem State.peek_storeBlock_sval (s : State) {a : Word} {bs : Bytes} {k : Int} (hk : (bs.length : Int) = k)
    (ha : 0 ≤ sval a) (hfit : sval a + k ≤ 0x8000) (x : Nat) :
    (s.storeBlock (sval a).toNat bs).peek x =
      if sval a ≤ x ∧ (x : Int) < sval a + k then bs.getD (x - a.toNat) 0 else s.peek x := by
  have hnat : (sval a).toNat = a.toNat := toNat_sval ha
  have hram : a.toNat + bs.length ≤ ramSize := by unfold ramSize; omega
  have hiff : (a.toNat ≤ x ∧ x < a.toNat + bs.length) ↔ (sval a ≤ x ∧ (x : Int) < sval a + k) := by omega
  rw [hnat, s.peek_storeBlock _ _ hram]
  simp only [hiff]

/-- A command that ends in a block store changes only the memory and the result port. -/
theorem State.storeBlock_noResult_frame (s : State) (a : Nat) (bs : Bytes) :
    (s.storeBlock a bs).noResult = { s with mem := (s.storeBlock a bs).mem, result := none } :=
  congrArg State.noResult (s.storeBlock_writes a bs).1

/-! ## `bulk_copy` -/

theorem exec_bulkCopy_of_moves {d r n : Word} (s : State) (h : CopyMoves (sval d) (sval r) (sval n)) :
    exec (.bulkCopy (some d) (some r) (some n)) s = .next (s.bulkCopy (sval d) (sval r) (sval n)).noResult := by
  have hpos : copyCount (sval d) (sval r) (sval n) ≠ 0 := by
    have hcount := copyCount_of_moves h
    obtain ⟨hlen, hdst, hdst', hsrc, hsrc'⟩ := h
    omega
  exact congrArg Host.Outcome.next (if_neg hpos)

theorem exec_bulkCopy_of_not_moves {d r n : Word} (s : State) (h : ¬ CopyMoves (sval d) (sval r) (sval n)) :
    exec (.bulkCopy (some d) (some r) (some n)) s = .next s.noResult :=
  congrArg Host.Outcome.next (if_pos (copyCount_of_not_moves h))

/-- A byte read after the move of R170: in the clamped range the byte the source held before it. -/
theorem State.peek_bulkCopy {d r n : Word} (s : State) (h : CopyMoves (sval d) (sval r) (sval n)) (x : Nat) :
    (s.bulkCopy (sval d) (sval r) (sval n)).peek x =
      if sval d ≤ x ∧ (x : Int) < sval d + min (sval n) (min (0x8000 - sval d) (0x8000 - sval r)) then
        s.peek (r.toNat + (x - d.toNat))
      else s.peek x := by
  have hcount : (copyCount (sval d) (sval r) (sval n) : Int) = _ := copyCount_of_moves h
  obtain ⟨-, hdst, -, hsrc, -⟩ := h
  have hnat : (sval d).toNat = d.toNat := toNat_sval hdst
  rw [State.bulkCopy,
    s.peek_storeBlock_sval ((congrArg Nat.cast (Memory.getBlock_length _ _ _)).trans hcount) hdst (by omega)]
  split
  next hx => rw [Memory.getBlock_getD _ _ _ _ (by omega), toNat_sval hsrc]; rfl
  next => rfl

/-- Settles O3, by whether the operands move any byte. -/
theorem bulkCopyMoves : Obligations.BulkCopyMoves := by
  intro s d r n _
  have hdec : decodeCommand ⟨[0x00070006, d, r, n], .empty⟩ = .ok (.bulkCopy (some d) (some r) (some n)) :=
    decodeCommand_of_row rfl rfl rfl le_rfl rfl
  by_cases h : CopyMoves d.toInt r.toInt n.toInt
  · refine ⟨_, exec_bulkCopy_of_moves s h, s.storeBlock_noResult_frame _ _,
      fun _ x => ⟨fun hx => ?_, fun hx => ?_⟩, fun hnoop => ?_, hdec⟩
    · exact (s.peek_bulkCopy h x).trans (if_pos hx)
    · exact (s.peek_bulkCopy h x).trans (if_neg hx)
    · obtain ⟨hlen, hdst, hdst', hsrc, hsrc'⟩ := h
      omega
  · exact ⟨_, exec_bulkCopy_of_not_moves s h, rfl, fun hmoves => absurd hmoves h, fun _ => rfl, hdec⟩

/-- The hypotheses of `bulkCopyMoves` hold of a copy onto an overlapping range that the end of the memory clamps. -/
theorem bulkCopy_overlapping : ∃ t,
    exec (.bulkCopy (some 0x7FFE) (some 0x7FFD) (some 9)) (State.reset.poke 0x7FFE 7) = .next t ∧
      t.peek 0x7FFF = 7 := by
  obtain ⟨t, hexec, -, hmoves, -, -⟩ :=
    bulkCopyMoves (State.reset.poke 0x7FFE 7) 0x7FFE 0x7FFD 9 (by decide +kernel)
  exact ⟨t, hexec, ((hmoves (by decide) 0x7FFF).1 (by decide)).trans (by decide +kernel)⟩

/-! ## `bulk_fill` -/

theorem exec_bulkFill_of_stores {d n : Word} (s : State) (v : Word) (h : FillStores (sval d) (sval n)) :
    exec (.bulkFill (some d) (some v) (some n)) s = .next (s.bulkFill (sval d) (low8 v) (sval n)).noResult := by
  have hpos : fillCount (sval d) (sval n) ≠ 0 := by
    have hcount := fillCount_of_stores h
    obtain ⟨hlen, hdst, hdst'⟩ := h
    omega
  exact congrArg Host.Outcome.next (if_neg hpos)

theorem exec_bulkFill_of_not_stores {d n : Word} (s : State) (v : Word) (h : ¬ FillStores (sval d) (sval n)) :
    exec (.bulkFill (some d) (some v) (some n)) s = .next s.noResult :=
  congrArg Host.Outcome.next (if_pos (fillCount_of_not_stores h))

/-- A byte read after the fill of R172: in the clamped range the byte filled with. -/
theorem State.peek_bulkFill {d n : Word} (s : State) (b : Byte) (h : FillStores (sval d) (sval n)) (x : Nat) :
    (s.bulkFill (sval d) b (sval n)).peek x =
      if sval d ≤ x ∧ (x : Int) < sval d + min (sval n) (0x8000 - sval d) then b else s.peek x := by
  have hcount : (fillCount (sval d) (sval n) : Int) = _ := fillCount_of_stores h
  obtain ⟨-, hdst, -⟩ := h
  have hnat : (sval d).toNat = d.toNat := toNat_sval hdst
  rw [State.bulkFill,
    s.peek_storeBlock_sval ((congrArg Nat.cast List.length_replicate).trans hcount) hdst (by omega)]
  split
  next hx => rw [List.getD_replicate _ (by omega)]
  next => rfl

/-- Settles O4, by whether the operands store any byte. -/
theorem bulkFillStores : Obligations.BulkFillStores := by
  intro s d v n _
  have hdec : decodeCommand ⟨[0x00070007, d, v, n], .empty⟩ = .ok (.bulkFill (some d) (some v) (some n)) :=
    decodeCommand_of_row rfl rfl rfl le_rfl rfl
  by_cases h : FillStores d.toInt n.toInt
  · refine ⟨_, exec_bulkFill_of_stores s v h, s.storeBlock_noResult_frame _ _,
      fun _ x => ⟨fun hx => ?_, fun hx => ?_⟩, fun hnoop => ?_, hdec⟩
    · exact (s.peek_bulkFill (low8 v) h x).trans (if_pos hx)
    · exact (s.peek_bulkFill (low8 v) h x).trans (if_neg hx)
    · obtain ⟨hlen, hdst, hdst'⟩ := h
      omega
  · exact ⟨_, exec_bulkFill_of_not_stores s v h, rfl, fun hstores => absurd hstores h, fun _ => rfl, hdec⟩

/-- The hypotheses of `bulkFillStores` hold of a fill that the end of the memory clamps. -/
theorem bulkFill_clamped : ∃ t,
    exec (.bulkFill (some 0x7FFE) (some 0x1AA) (some 0x100)) State.reset = .next t ∧
      t.peek 0x7FFF = 0xAA ∧ t.peek 0x8000 = State.reset.peek 0x8000 := by
  obtain ⟨t, hexec, -, hstores, -, -⟩ := bulkFillStores State.reset 0x7FFE 0x1AA 0x100 (by decide +kernel)
  exact ⟨t, hexec, (hstores (by decide) 0x7FFF).1 (by decide), (hstores (by decide) 0x8000).2 (by decide)⟩

end Sys2Proof.Machine
end

section
/-! SUPPORT. What leaves the loader's registers alone (10_state.md R50 to R54): every command but `reset` and
`load_cart`, and every hook, keeps the configuration, the decoder and the cart registers. -/

namespace Sys2Proof.Machine

/-! ## The loader's registers -/

/-- What the loader works on: the configuration, the decoder and the cart registers. -/
def State.loader (s : State) : Config × Decoder × Cart := (s.cfg, s.dec, s.cart)

theorem State.loader_eq_iff {s t : State} :
    t.loader = s.loader ↔ t.cfg = s.cfg ∧ t.dec = s.dec ∧ t.cart = s.cart := by
  simp only [State.loader, Prod.mk.injEq]

/-! Changes of other registers. -/

@[simp] theorem State.loader_returns (s : State) (w : Word) : (s.returns w).loader = s.loader := rfl
@[simp] theorem State.loader_noResult (s : State) : s.noResult.loader = s.loader := rfl
@[simp] theorem State.loader_ignored (s : State) : s.ignored.loader = s.loader := rfl
@[simp] theorem State.loader_popPort (s : State) : s.popPort.loader = s.loader := rfl
@[simp] theorem State.loader_withChannels (s : State) (cs : Channels) : (s.withChannels cs).loader = s.loader := rfl
@[simp] theorem State.loader_withVm (s : State) (v : Controller) : (s.withVm v).loader = s.loader := rfl
@[simp] theorem State.loader_enter (s : State) (l : Lifecycle) : (s.enter l).loader = s.loader := rfl
@[simp] theorem State.loader_commitFrame (s : State) : s.commitFrame.loader = s.loader := rfl
@[simp] theorem State.loader_tookLoadAnswer (s : State) : s.tookLoadAnswer.loader = s.loader := rfl
@[simp] theorem State.loader_tookHookAnswer (s : State) : s.tookHookAnswer.loader = s.loader := rfl
@[simp] theorem State.loader_raiseScriptError (s : State) (msg : Bytes) :
    (s.raiseScriptError msg).loader = s.loader := rfl

/-! Operations that only write bytes. -/

theorem WritesOnly.loader {P : Nat → Prop} {s t : State} (h : WritesOnly P s t) : t.loader = s.loader :=
  h.field State.loader fun _ _ => rfl

@[simp] theorem State.loader_poke (s : State) (a : Nat) (b : Byte) : (s.poke a b).loader = s.loader :=
  (s.poke_writes a b).loader

@[simp] theorem State.loader_poke16 (s : State) (a : Nat) (v : Half) : (s.poke16 a v).loader = s.loader :=
  (s.poke16_writes a v).loader

@[simp] theorem State.loader_pokeAll (s : State) (a : Nat) (bs : Bytes) : (s.pokeAll a bs).loader = s.loader :=
  (s.pokeAll_writes a bs).loader

@[simp] theorem State.loader_pokePairs (s : State) (l : List (Nat × Byte)) : (s.pokePairs l).loader = s.loader :=
  (s.pokePairs_writes l).loader

@[simp] theorem State.loader_memWrite (s : State) (addr : Int) (n : Nat) (v : Word) :
    (s.memWrite addr n v).loader = s.loader := (s.memWrite_writes addr n v).loader

@[simp] theorem State.loader_storeBlock (s : State) (a : Nat) (bs : Bytes) : (s.storeBlock a bs).loader = s.loader :=
  (s.storeBlock_writes a bs).loader

@[simp] theorem State.loader_pset (s : State) (base : Nat) (x y : Int) (c : BitVec 4) :
    (s.pset base x y c).loader = s.loader := (s.pset_writes base x y c).loader

@[simp] theorem State.loader_colorStep (s : State) (c : Operand) : (s.colorStep c).loader = s.loader :=
  (s.colorStep_writes c).loader

@[simp] theorem State.loader_plot (s : State) (x y : Int) : (s.plot x y).loader = s.loader :=
  (s.plot_screen x y).loader

@[simp] theorem State.loader_plotAll (s : State) (l : List (Int × Int)) : (s.plotAll l).loader = s.loader :=
  (s.plotAll_screen l).loader

@[simp] theorem State.loader_drawSprite (s : State) (n x y w h : Int) (fx fy : Bool) :
    (s.drawSprite n x y w h fx fy).loader = s.loader := (s.drawSprite_screen n x y w h fx fy).loader

@[simp] theorem State.loader_drawScaled (s : State) (sx sy sw sh dx dy dw dh : Int) (fx fy : Bool) :
    (s.drawScaled sx sy sw sh dx dy dw dh fx fy).loader = s.loader :=
  (s.drawScaled_screen sx sy sw sh dx dy dw dh fx fy).loader

@[simp] theorem State.loader_drawCells (s : State) (layers : Operand) (l : List (Int × Int × Int × Int)) :
    (s.drawCells layers l).loader = s.loader := (s.drawCells_screen layers l).loader

@[simp] theorem State.loader_recordLineEnd (s : State) (x y : Int) : (s.recordLineEnd x y).loader = s.loader :=
  (State.loader_poke16 _ _ _).trans (s.loader_poke16 _ _)

@[simp] theorem State.loader_markTransparent (s : State) (c : BitVec 4) (t : Bool) :
    (s.markTransparent c t).loader = s.loader := s.loader_poke _ _

@[simp] theorem State.loader_markAll (s : State) (l : List (BitVec 4 × Bool)) : (s.markAll l).loader = s.loader := by
  induction l generalizing s with
  | nil => rfl
  | cons q l ih => exact (ih _).trans (s.loader_markTransparent q.1 q.2)

@[simp] theorem State.loader_applySave (s : State) : s.applySave.loader = s.loader := by
  unfold State.applySave
  split
  · split
    · simp
    · rfl
  · rfl

@[simp] theorem State.loader_setPixels (s : State) (y x : Nat) (ds : List (BitVec 4)) :
    (s.setPixels y x ds).loader = s.loader := by
  induction ds generalizing s x with
  | nil => rfl
  | cons d ds ih =>
    unfold State.setPixels
    exact (ih _ (x + 1)).trans (s.loader_pset _ _ _ _)

@[simp] theorem State.loader_gfxLine (s : State) (ln : Bytes) (row : Nat) : (s.gfxLine ln row).loader = s.loader := by
  unfold State.gfxLine
  split
  · simp
  · rfl

@[simp] theorem State.loader_pairLine (s : State) (base rows : Nat) (ln : Bytes) (row : Nat) :
    (s.pairLine base rows ln row).loader = s.loader := by
  unfold State.pairLine
  split
  · simp
  · rfl

@[simp] theorem State.loader_sfxLine (s : State) (ln : Bytes) (row : Nat) : (s.sfxLine ln row).loader = s.loader := by
  unfold State.sfxLine
  split
  · simp
  · rfl

@[simp] theorem State.loader_musicLine (s : State) (ln : Bytes) (row : Nat) :
    (s.musicLine ln row).loader = s.loader := by
  unfold State.musicLine
  split
  · simp
  · rfl

@[simp] theorem State.loader_dataLine (s : State) (sec : Section) (ln : Bytes) (row : Nat) :
    (s.dataLine sec ln row).loader = s.loader := by
  cases sec with
  | graphics => exact s.loader_gfxLine ln row
  | flags => exact s.loader_pairLine flagsBase 2 ln row
  | map => exact s.loader_pairLine mapBase 32 ln row
  | sound => exact s.loader_sfxLine ln row
  | music => exact s.loader_musicLine ln row
  | none | script | skip => rfl

/-! ## Outcomes -/

/-- Every next state of the outcome has the loader's registers of `s`. -/
def OutKeepsLoader (s : State) (o : Out) : Prop := ∀ t, o = .next t → t.loader = s.loader

@[simp] theorem outKeepsLoader_next {s t : State} : OutKeepsLoader s (.next t) ↔ t.loader = s.loader :=
  ⟨fun h => h t rfl, fun h _ ht => by cases ht; exact h⟩

/-- An outcome reached through a state with the same loader registers. -/
theorem OutKeepsLoader.of_eq {s u : State} {o : Out} (h : u.loader = s.loader) (ho : OutKeepsLoader u o) :
    OutKeepsLoader s o := fun t ht => (ho t ht).trans h

theorem OutKeepsLoader.andThen {s : State} {o : Out} {f : State → Out} (ho : OutKeepsLoader s o)
    (hf : ∀ u, OutKeepsLoader u (f u)) : OutKeepsLoader s (andThen o f) := by
  intro t ht
  obtain ⟨u, hu, hut⟩ := andThen_eq_next ht
  exact (hf u t hut).trans (ho u hu)

/-! ## Commands of a trace -/

@[simp] theorem loader_readCmd (n : Nat) (addr : Operand) (s : State) : (readCmd n addr s).loader = s.loader := by
  cases addr with
  | none => rfl
  | some a => rfl

@[simp] theorem loader_writeCmd (n : Nat) (addr v : Operand) (s : State) :
    (writeCmd n addr v s).loader = s.loader := by
  unfold writeCmd
  split
  · simp
  · rfl

theorem execBulkCopy_keepsLoader (dst src len : Operand) (s : State) :
    OutKeepsLoader s (execBulkCopy dst src len s) := by
  unfold execBulkCopy
  split
  · split
    · simp
    · simp [State.bulkCopy]
  · simp

theorem execBulkFill_keepsLoader (dst value len : Operand) (s : State) :
    OutKeepsLoader s (execBulkFill dst value len s) := by
  unfold execBulkFill
  split
  · split
    · simp
    · simp [State.bulkFill]
  · simp

theorem execSetClip_keepsLoader (x y w h : Operand) (s : State) : OutKeepsLoader s (execSetClip x y w h s) := by
  unfold execSetClip
  split <;> simp

theorem execSetColor_keepsLoader (c : Operand) (s : State) : OutKeepsLoader s (execSetColor c s) := by
  cases c with
  | none => simp [execSetColor]
  | some w => simp [execSetColor]

theorem execSetPalette_keepsLoader (c0 c1 p : Operand) (s : State) :
    OutKeepsLoader s (execSetPalette c0 c1 p s) := by
  cases c0 with
  | none =>
    cases c1 with
    | none => exact outKeepsLoader_next.mpr (s.loader_pokePairs _)
    | some b => exact outKeepsLoader_next.mpr s.loader_noResult
  | some a =>
    cases c1 with
    | none => exact outKeepsLoader_next.mpr s.loader_noResult
    | some b =>
      unfold execSetPalette
      dsimp only
      split
      · simp
      · split
        · simp
        · simp

theorem execSetTransparent_keepsLoader (c t : Operand) (s : State) :
    OutKeepsLoader s (execSetTransparent c t s) := by
  cases c with
  | none => simp [execSetTransparent]
  | some a => simp [execSetTransparent]

theorem execSetPixel_keepsLoader (x y c : Operand) (s : State) : OutKeepsLoader s (execSetPixel x y c s) := by
  unfold execSetPixel
  split <;> simp

theorem execGetPixel_keepsLoader (x y : Operand) (s : State) : OutKeepsLoader s (execGetPixel x y s) := by
  unfold execGetPixel
  split <;> simp

theorem execLine_keepsLoader (x0 y0 x1 y1 c : Operand) (s : State) :
    OutKeepsLoader s (execLine x0 y0 x1 y1 c s) := by
  unfold execLine
  split <;> simp

@[simp] theorem loader_rectCmd (points : Int → Int → Int → Int → List (Int × Int)) (x0 y0 x1 y1 c : Operand)
    (s : State) : (rectCmd points x0 y0 x1 y1 c s).loader = s.loader := by
  unfold rectCmd
  split <;> simp

@[simp] theorem loader_circleCmd (points : Int → Int → Int → List (Int × Int)) (x y r c : Operand) (s : State) :
    (circleCmd points x y r c s).loader = s.loader := by
  unfold circleCmd
  split
  · split
    · simp
    · simp
  · simp

@[simp] theorem loader_ellipseCmd (points : Int → Int → Int → Int → List (Int × Int)) (x0 y0 x1 y1 c : Operand)
    (s : State) : (ellipseCmd points x0 y0 x1 y1 c s).loader = s.loader := by
  unfold ellipseCmd
  split <;> simp

theorem execSprite_keepsLoader (n x y w h flipX flipY : Operand) (s : State) :
    OutKeepsLoader s (execSprite n x y w h flipX flipY s) := by
  unfold execSprite
  split <;> simp

theorem execSpriteScaled_keepsLoader (sx sy sw sh dx dy dw dh flipX flipY : Operand) (s : State) :
    OutKeepsLoader s (execSpriteScaled sx sy sw sh dx dy dw dh flipX flipY s) := by
  unfold execSpriteScaled
  split <;> simp

theorem execTileMap_keepsLoader (cx0 cy0 sx sy cw ch layers : Operand) (s : State) :
    OutKeepsLoader s (execTileMap cx0 cy0 sx sy cw ch layers s) := by
  unfold execTileMap
  split <;> simp

@[simp] theorem State.loader_playSfx (s : State) (n : Int) (channel offset : Operand) :
    (s.playSfx n channel offset).loader = s.loader := by
  unfold State.playSfx
  split
  · simp
  · split
    · simp
    · rfl

theorem execSfx_keepsLoader (n channel offset : Operand) (s : State) :
    OutKeepsLoader s (execSfx n channel offset s) := by
  cases n with
  | none => simp [execSfx]
  | some n => simp [execSfx]

theorem execMusic_keepsLoader (n : Operand) (s : State) : OutKeepsLoader s (execMusic n s) := by
  unfold execMusic
  split
  · split
    · exact outKeepsLoader_next.mpr rfl
    · split
      · exact outKeepsLoader_next.mpr rfl
      · simp
  · simp

theorem execSetMasterVolume_keepsLoader (v : Operand) (s : State) :
    OutKeepsLoader s (execSetMasterVolume v s) := by
  cases v with
  | none => simp [execSetMasterVolume]
  | some w => exact outKeepsLoader_next.mpr rfl

/-- The commands that may stand in a trace. -/
theorem exec_keepsLoader_of_inTrace {i : Instr} (hi : i.inTrace = true) (s : State) :
    OutKeepsLoader s (exec i s) := by
  cases i with
  | read8 | read16 | read32 => exact outKeepsLoader_next.mpr (loader_readCmd _ _ s)
  | write8 | write16 | write32 => exact outKeepsLoader_next.mpr (loader_writeCmd _ _ _ s)
  | bulkCopy dst src len => exact execBulkCopy_keepsLoader dst src len s
  | bulkFill dst value len => exact execBulkFill_keepsLoader dst value len s
  | setClip x y w h => exact execSetClip_keepsLoader x y w h s
  | setCamera x y => simp [exec, execSetCamera]
  | setColor c => exact execSetColor_keepsLoader c s
  | setPalette c0 c1 p => exact execSetPalette_keepsLoader c0 c1 p s
  | setTransparent c t => exact execSetTransparent_keepsLoader c t s
  | setFillPattern pattern trans => simp [exec, execSetFillPattern]
  | setCursor x y c => simp [exec, execSetCursor]
  | clear c => exact outKeepsLoader_next.mpr ((State.loader_pokePairs _ _).trans (s.loader_storeBlock _ _))
  | setPixel x y c => exact execSetPixel_keepsLoader x y c s
  | getPixel x y => exact execGetPixel_keepsLoader x y s
  | line x0 y0 x1 y1 c => exact execLine_keepsLoader x0 y0 x1 y1 c s
  | rect | rectFill => exact outKeepsLoader_next.mpr (loader_rectCmd _ _ _ _ _ _ s)
  | circle | circleFill => exact outKeepsLoader_next.mpr (loader_circleCmd _ _ _ _ _ s)
  | ellipse | ellipseFill => exact outKeepsLoader_next.mpr (loader_ellipseCmd _ _ _ _ _ _ s)
  | sprite n x y w h flipX flipY => exact execSprite_keepsLoader n x y w h flipX flipY s
  | spriteScaled sx sy sw sh dx dy dw dh flipX flipY =>
    exact execSpriteScaled_keepsLoader sx sy sw sh dx dy dw dh flipX flipY s
  | tileMap cx0 cy0 sx sy cw ch layers => exact execTileMap_keepsLoader cx0 cy0 sx sy cw ch layers s
  | text str x y c => simp [exec, execText]
  | sfx n channel offset => exact execSfx_keepsLoader n channel offset s
  | music n => exact execMusic_keepsLoader n s
  | sample => exact outKeepsLoader_next.mpr rfl
  | _ => exact absurd hi Bool.false_ne_true

/-! ## Hooks and the controller -/

theorem runTrace_keepsLoader (l : List TraceItem) (s : State) : OutKeepsLoader s (runTrace l s) := by
  induction l generalizing s with
  | nil => exact outKeepsLoader_next.mpr rfl
  | cons t l ih =>
    have hitem : OutKeepsLoader s (runTraceItem t s) := by
      rw [runTraceItem_eq_exec]
      exact exec_keepsLoader_of_inTrace t.property s
    exact hitem.andThen ih

@[simp] theorem State.loader_recordLoad (s : State) (a : LoadAnswer) : (s.recordLoad a).loader = s.loader := by
  unfold State.recordLoad
  split <;> rfl

theorem callLoad_keepsLoader (s : State) : OutKeepsLoader s (callLoad s) :=
  (OutKeepsLoader.of_eq s.loader_tookLoadAnswer (runTrace_keepsLoader _ _)).andThen fun u =>
    outKeepsLoader_next.mpr (u.loader_recordLoad _)

theorem callHook_keepsLoader (h : Hook) {f : HookAnswer → State → Out} (hf : ∀ a u, OutKeepsLoader u (f a u))
    (s : State) : OutKeepsLoader s (callHook h f s) :=
  (OutKeepsLoader.of_eq s.loader_tookHookAnswer (runTrace_keepsLoader _ _)).andThen (hf _)

theorem afterInit_keepsLoader (a : HookAnswer) (s : State) : OutKeepsLoader s (afterInit a s) := by
  unfold afterInit
  split <;> simp

theorem execRun_keepsLoader (s : State) : OutKeepsLoader s (execRun s) := by
  unfold execRun
  split
  · split
    · exact .of_eq (s.loader_enter .running) (callHook_keepsLoader .init afterInit_keepsLoader _)
    · simp
  · simp

theorem execPause_keepsLoader (s : State) : OutKeepsLoader s (execPause s) := by
  unfold execPause
  split <;> simp

theorem execResume_keepsLoader (s : State) : OutKeepsLoader s (execResume s) := by
  unfold execResume
  split <;> simp

theorem afterDraw_keepsLoader (a : HookAnswer) (s : State) : OutKeepsLoader s (afterDraw a s) := by
  unfold afterDraw
  split <;> simp

theorem drawPhase_keepsLoader (s : State) : OutKeepsLoader s (drawPhase s) := by
  unfold drawPhase
  split
  · exact callHook_keepsLoader .draw afterDraw_keepsLoader s
  · simp

theorem afterUpdate_keepsLoader (a : HookAnswer) (s : State) : OutKeepsLoader s (afterUpdate a s) := by
  unfold afterUpdate
  split
  · simp
  · exact drawPhase_keepsLoader s

theorem frame_keepsLoader (s : State) : OutKeepsLoader s (frame s) := by
  unfold frame
  split
  · exact callHook_keepsLoader _ afterUpdate_keepsLoader s
  · exact drawPhase_keepsLoader s

theorem execStep_keepsLoader (s : State) : OutKeepsLoader s (execStep s) := by
  unfold execStep
  split
  · exact .of_eq (s.loader_withVm _) (frame_keepsLoader _)
  · simp

/-- Every command but `reset` and `load_cart` leaves the loader's registers alone. -/
theorem exec_keepsLoader {i : Instr} (hc : i.isCommand = true) (hreset : i ≠ .reset)
    (hload : ∀ src, i ≠ .loadCart src) (s : State) : OutKeepsLoader s (exec i s) := by
  cases ht : i.inTrace with
  | true => exact exec_keepsLoader_of_inTrace ht s
  | false =>
    cases i with
    | reset => exact absurd rfl hreset
    | loadCart src => exact absurd rfl (hload src)
    | run => exact execRun_keepsLoader s
    | pause => exact execPause_keepsLoader s
    | resume => exact execResume_keepsLoader s
    | stop | unload => exact outKeepsLoader_next.mpr rfl
    | step => exact execStep_keepsLoader s
    | queryError | queryFps | queryFrame => exact outKeepsLoader_next.mpr rfl
    | setMasterVolume v => exact execSetMasterVolume_keepsLoader v s
    | dfStored | dfFixed | dfDynamic | dfReserved | dfLit | dfEob | dfLen => exact absurd hc Bool.false_ne_true
    | fltNone | fltSub | fltUp | fltAvg | fltPaeth => exact absurd hc Bool.false_ne_true
    | nfLit | nfRef15 | nfRef10 | nfRef5 | nfRaw => exact absurd hc Bool.false_ne_true
    | lgEsc | lgSym | lgRef | rawScript => exact absurd hc Bool.false_ne_true
    | _ => exact absurd ht.symm Bool.false_ne_true

end Sys2Proof.Machine
end

section
/-! SUPPORT. What keeps the decoder within its capacities and the cart registers consistent (42_inflate.md R212,
44_code_decompress.md R271 to R276, 43_png_unfilter_extract.md R250, R257, 60_exceptions.md R474): the error entry,
each stream token, the stage changes, the loader, then every instruction and the step. -/

namespace Sys2Proof.Machine

/-! ## The invariant's parts -/

theorem State.Sound.raw_le {s : State} (h : s.Sound) : s.dec.raw.length ≤ s.dec.rawCap := h.1.1

theorem State.Sound.limit_le {s : State} (h : s.Sound) : s.dec.limit ≤ s.cfg.codeCap := h.1.2.1

theorem State.Sound.codeOut_le {s : State} (h : s.Sound) : s.dec.codeOut.length ≤ s.cfg.codeCap := h.1.2.2.1

theorem State.Sound.atLine {s : State} (h : s.Sound) (hstage : s.dec.stage = .scanlines) :
    s.dec.raw.length = s.dec.rawCap ∧
      ∃ y, y ≤ s.dec.imgH ∧ s.dec.inPos = y * (s.dec.stride + 1) ∧ s.dec.pix.length = y * s.dec.stride :=
  h.1.2.2.2 hstage

theorem State.Sound.table {s : State} (h : s.Sound) : s.dec.TablePermuted := h.2.1

theorem State.Sound.cart {s : State} (h : s.Sound) : s.cart.Consistent s.cfg := h.2.2

/-- The invariant speaks of the loader's registers only. -/
theorem State.Sound.of_loader {s t : State} (hs : s.Sound) (h : t.loader = s.loader) : t.Sound := by
  obtain ⟨hcfg, hdec, hcart⟩ := State.loader_eq_iff.mp h
  rwa [State.Sound, hcfg, hdec, hcart]

/-- Another decoder outside the filter stage needs its capacities and its table only. -/
theorem State.Sound.withDec {s : State} {d : Decoder} (hs : s.Sound) (hraw : d.raw.length ≤ d.rawCap)
    (hlimit : d.limit ≤ s.cfg.codeCap) (hout : d.codeOut.length ≤ s.cfg.codeCap) (hstage : d.stage ≠ .scanlines)
    (htable : d.TablePermuted) : (s.withDec d).Sound :=
  ⟨⟨hraw, hlimit, hout, fun h => absurd h hstage⟩, htable, hs.cart⟩

/-- Is this a stage of which the invariant asks nothing but the capacities? -/
def Stage.Free (st : Stage) : Prop := st ≠ .scanlines ∧ st ≠ .newFormat

/-- The inflate tokens leave the script decoder's registers and the size of the output alone. -/
theorem State.Sound.withDec_inflate {s : State} {d : Decoder} (hs : s.Sound) (hraw : d.raw.length ≤ d.rawCap)
    (hlimit : d.limit = s.dec.limit) (hout : d.codeOut = s.dec.codeOut) (hstage : d.stage.Free) :
    (s.withDec d).Sound :=
  hs.withDec hraw (hlimit ▸ hs.limit_le) (hout ▸ hs.codeOut_le) hstage.1 fun h => absurd h hstage.2

/-- Another script text within `CODE_CAP`. -/
theorem State.Sound.withCodeOut {s : State} (hs : s.Sound) {out : Bytes} (hout : out.length ≤ s.cfg.codeCap) :
    (s.withDec { s.dec with codeOut := out }).Sound :=
  ⟨⟨hs.raw_le, hs.limit_le, hout, hs.atLine⟩, hs.table, hs.cart⟩

/-- The end of the running stage. -/
theorem State.Sound.withIdle {s : State} (hs : s.Sound) : (s.withDec { s.dec with stage := .idle }).Sound :=
  hs.withDec_inflate hs.raw_le rfl rfl ⟨nofun, nofun⟩

/-- Outside the filter stage the cursor is free. -/
theorem State.Sound.consume {s : State} (hs : s.Sound) (hstage : s.dec.stage ≠ .scanlines) (pos : Nat) :
    (s.consume pos).Sound :=
  hs.withDec hs.raw_le hs.limit_le hs.codeOut_le hstage hs.table

/-- The error entry marks the cart invalid with length 0 and ends the stage (R474). -/
theorem State.Sound.raiseLoadError {s : State} (hs : s.Sound) (c : Cause) : (s.raiseLoadError c).Sound :=
  ⟨hs.withIdle.1, hs.withIdle.table, Nat.zero_le _, fun _ => rfl⟩

/-! ## Outcomes -/

/-- Every next state of the outcome meets the invariant. -/
def OutSound (o : Out) : Prop := ∀ t, o = .next t → t.Sound

theorem State.Sound.out {t : State} (h : t.Sound) : OutSound (.next t) := by
  rintro _ ⟨⟩
  exact h

theorem outSound_fault (r : Fault) : OutSound (.fault r) := by
  rintro _ ⟨⟩

theorem OutSound.andThen {o : Out} {f : State → Out} (ho : OutSound o) (hf : ∀ u, u.Sound → OutSound (f u)) :
    OutSound (andThen o f) := by
  intro t ht
  obtain ⟨u, hu, hut⟩ := andThen_eq_next ht
  exact hf u (ho u hu) t hut

/-- What leaves the loader's registers alone keeps the invariant. -/
theorem OutKeepsLoader.sound {s : State} {o : Out} (h : OutKeepsLoader s o) (hs : s.Sound) : OutSound o :=
  fun t ht => hs.of_loader (h t ht)

theorem outSound_inStage {s : State} {st : Stage} {o : Out} (h : s.dec.stage = st → OutSound o) :
    OutSound (s.inStage st o) := by
  unfold State.inStage
  split
  next hstage => exact h hstage
  next => exact outSound_fault _

theorem badDeflate_sound {s : State} (hs : s.Sound) : OutSound (badDeflate s) := (hs.raiseLoadError _).out

theorem badCodeStream_sound {s : State} (hs : s.Sound) : OutSound (badCodeStream s) := (hs.raiseLoadError _).out

/-! ## Inflate tokens -/

theorem blockHeader_free {st : Stage} (h : st = .blockHeader) : st.Free := h ▸ ⟨by decide, by decide⟩

theorem blockTokens_free {st : Stage} (h : st = .blockTokens) : st.Free := h ▸ ⟨by decide, by decide⟩

theorem blockEnd_free (final : Bool) : (blockEnd final).Free := by
  cases final with
  | false => exact ⟨by decide, by decide⟩
  | true => exact ⟨by decide, by decide⟩

theorem State.copyStored_sound {s : State} (hs : s.Sound) (final : Bool) (len nlen pos : Nat) :
    OutSound (s.copyStored final len nlen pos) := by
  unfold State.copyStored
  split
  · exact badDeflate_sound hs
  · split
    · exact badDeflate_sound hs
    · split
      · exact badDeflate_sound hs
      next hcap =>
        have hlen : (s.dec.raw ++ (s.dec.stream.drop (pos / 8)).take len).length ≤ s.dec.rawCap := by
          have htake := List.length_take_le len (s.dec.stream.drop (pos / 8))
          rw [List.length_append]
          omega
        refine State.Sound.out ?_
        exact hs.withDec_inflate hlen rfl rfl (blockEnd_free final)

theorem execDfStored_sound {s : State} (hs : s.Sound) (final : Bool) : OutSound (execDfStored final s) := by
  refine outSound_inStage fun _ => ?_
  split
  · exact badDeflate_sound hs
  · exact s.copyStored_sound hs final _ _ _

theorem openBlock_sound {s : State} (hs : s.Sound) (final : Bool) (lens : List Nat × List Nat) (pos : Nat) :
    (s.withDec (s.dec.openBlock final lens pos)).Sound :=
  hs.withDec_inflate hs.raw_le rfl rfl (blockTokens_free rfl)

theorem execDfDynamic_sound {s : State} (hs : s.Sound) (final : Bool) : OutSound (execDfDynamic final s) := by
  refine outSound_inStage fun _ => ?_
  split
  · exact badDeflate_sound hs
  · exact (openBlock_sound hs final _ _).out

theorem execDfLit_sound {s : State} (hs : s.Sound) (sym : Byte) : OutSound (execDfLit sym s) := by
  refine outSound_inStage fun hstage => ?_
  split
  · exact badDeflate_sound hs
  next hcap =>
    have hlen : (s.dec.raw ++ [sym]).length ≤ s.dec.rawCap := by
      rw [List.length_append, List.length_singleton]
      omega
    refine State.Sound.out ?_
    exact hs.withDec_inflate hlen rfl rfl (blockTokens_free hstage)

theorem execDfEob_sound {s : State} (hs : s.Sound) : OutSound (execDfEob s) := by
  refine outSound_inStage fun _ => State.Sound.out ?_
  exact hs.withDec_inflate hs.raw_le rfl rfl (blockEnd_free _)

theorem execDfLen_sound {s : State} (hs : s.Sound) (lsym lextra dsym dextra : Nat) :
    OutSound (execDfLen lsym lextra dsym dextra s) := by
  refine outSound_inStage fun hstage => ?_
  split
  · exact badDeflate_sound hs
  · split
    · exact badDeflate_sound hs
    · split
      · exact badDeflate_sound hs
      next hcap =>
        have hlen : (copyBack (copyDist dsym dextra) (copyLength lsym lextra) s.dec.raw).length ≤ s.dec.rawCap := by
          rw [copyBack_length]
          omega
        refine State.Sound.out ?_
        exact hs.withDec_inflate hlen rfl rfl (blockTokens_free hstage)

/-! ## Script tokens -/

/-- `emit` appends below the limit only (R271). -/
theorem State.Sound.emitCode {s : State} (hs : s.Sound) (b : Byte) : (s.withDec (s.dec.emitCode b)).Sound := by
  unfold Decoder.emitCode
  split
  next hlt =>
    refine hs.withCodeOut ?_
    have hlimit := hs.limit_le
    rw [List.length_append, List.length_singleton]
    omega
  next => exact hs

theorem State.copyCode_sound {s : State} (hs : s.Sound) (offset length : Nat) :
    OutSound (s.copyCode offset length) := by
  unfold State.copyCode
  split
  · exact badCodeStream_sound hs
  · refine (hs.withCodeOut ?_).out
    have hlimit := hs.limit_le
    have hout := hs.codeOut_le
    rw [copyBack_length]
    omega

/-- A literal promotes an entry of the table, which stays a permutation (R276). -/
theorem execNfLit_sound {s : State} (hs : s.Sound) (index : Byte) : OutSound (execNfLit index s) := by
  refine outSound_inStage fun hstage => ?_
  have hperm : s.dec.mtf.Perm mtfInit := hs.table hstage
  have hindex : index.toNat < s.dec.mtf.length := by
    have hlen : mtfInit.length = 256 := by rw [mtfInit, List.length_map, List.length_range]
    rw [hperm.length_eq, hlen]
    exact index.isLt
  have hpromoted : (s.withDec { s.dec with mtf := promote s.dec.mtf index.toNat }).Sound :=
    hs.withDec hs.raw_le hs.limit_le hs.codeOut_le (by rw [hstage]; decide)
      fun _ => (promote_perm _ _ hindex).trans hperm
  exact (hpromoted.emitCode _).out

theorem rawRun_length_le (T : Bytes) (n pos : Nat) : (rawRun T n pos).1.length ≤ n := by
  induction n generalizing pos with
  | zero => exact Nat.le_refl 0
  | succ n ih =>
    unfold rawRun
    split
    · exact Nat.zero_le _
    · split
      · exact Nat.zero_le _
      · exact Nat.succ_le_succ (ih _)

theorem execNfRaw_sound {s : State} (hs : s.Sound) : OutSound (execNfRaw s) := by
  refine outSound_inStage fun hstage => ?_
  have hrun := rawRun_length_le s.codeStream (s.dec.limit - s.dec.codeOut.length) s.dec.inPos
  have hlimit := hs.limit_le
  have hout := hs.codeOut_le
  refine State.Sound.out ?_
  refine hs.withDec hs.raw_le hs.limit_le ?_ ?_ fun _ => hs.table hstage
  · rw [List.length_append]
    omega
  · dsimp only
    split
    · decide
    · decide

theorem execLgRef_sound {s : State} (hs : s.Sound) (b0 b1 : Byte) : OutSound (execLgRef b0 b1 s) := by
  refine outSound_inStage fun _ => ?_
  dsimp only
  split
  · exact badCodeStream_sound hs
  · exact s.copyCode_sound hs _ _

theorem execRawScript_sound {s : State} (hs : s.Sound) : OutSound (execRawScript s) := by
  obtain ⟨-, -, hlen⟩ := rawScriptBytes_spec s.cfg.codeCap s.dec.script
  refine outSound_inStage fun _ => State.Sound.out ?_
  exact hs.withDec hs.raw_le hs.limit_le hlen nofun nofun

/-! ## Scanlines -/

/-- A scanline token outside the filter stage has no next state. -/
theorem scanline_sound_of_ne {s : State} (hstage : s.dec.stage ≠ .scanlines) (pred : Byte → Byte → Byte → Byte) :
    OutSound (s.scanline pred) :=
  outSound_inStage fun h => absurd h hstage

/-- A scanline behind its filter byte moves the cursor from one line's start to the next one's (R250). -/
theorem scanline_sound {s : State} (hs : s.Sound) (hstage : s.dec.stage = .scanlines)
    (hpos : s.dec.inPos < s.dec.rawCap) (pred : Byte → Byte → Byte → Byte) :
    OutSound ((s.consume (s.dec.inPos + 1)).scanline pred) := by
  obtain ⟨hraw, y, -, hinPos, hpix⟩ := hs.atLine hstage
  have hy : y < s.dec.imgH := by
    rw [hinPos, Decoder.rawCap, Nat.add_comm 1] at hpos
    exact Nat.lt_of_mul_lt_mul_right hpos
  refine outSound_inStage fun _ => ?_
  dsimp only
  split
  · exact outSound_fault _
  next hline =>
    have htake := List.length_take_le s.dec.stride (s.dec.raw.drop (s.dec.inPos + 1))
    have hxs : ((s.dec.raw.drop (s.dec.inPos + 1)).take s.dec.stride).length = s.dec.stride :=
      Nat.le_antisymm htake (Nat.le_of_not_lt hline)
    refine State.Sound.out ⟨⟨hs.raw_le, hs.limit_le, hs.codeOut_le, fun _ => ⟨hraw, y + 1, hy, ?_, ?_⟩⟩,
      hs.table, hs.cart⟩
    · change s.dec.inPos + 1 + s.dec.stride = (y + 1) * (s.dec.stride + 1)
      rw [hinPos, Nat.succ_mul]
      omega
    · change (s.dec.pix ++ filterLine pred s.dec.lastLine [] _).length = (y + 1) * s.dec.stride
      rw [List.length_append, filterLine_length, hpix, Nat.succ_mul]
      exact congrArg _ ((Nat.zero_add _).trans hxs)

/-- Every stream token outside the filter stage; a command executed as one faults. -/
theorem runToken_sound {s : State} (hs : s.Sound) (hstage : s.dec.stage ≠ .scanlines) (i : Instr) :
    OutSound (runToken i s) := by
  cases i with
  | dfStored final => exact execDfStored_sound hs final
  | dfFixed final => exact outSound_inStage fun _ => (openBlock_sound hs final _ _).out
  | dfDynamic final => exact execDfDynamic_sound hs final
  | dfReserved final => exact outSound_inStage fun _ => badDeflate_sound hs
  | dfLit sym => exact execDfLit_sound hs sym
  | dfEob => exact execDfEob_sound hs
  | dfLen lsym lextra dsym dextra => exact execDfLen_sound hs lsym lextra dsym dextra
  | fltNone | fltSub | fltUp | fltAvg | fltPaeth => exact scanline_sound_of_ne hstage _
  | nfLit index => exact execNfLit_sound hs index
  | nfRef15 field length | nfRef10 field length | nfRef5 field length =>
    exact outSound_inStage fun _ => s.copyCode_sound hs _ length
  | nfRaw => exact execNfRaw_sound hs
  | lgEsc b1 => exact outSound_inStage fun _ => (hs.emitCode b1).out
  | lgSym b0 => exact outSound_inStage fun _ => (hs.emitCode _).out
  | lgRef b0 b1 => exact execLgRef_sound hs b0 b1
  | rawScript => exact execRawScript_sound hs
  | _ => exact outSound_fault _

/-! ## Between the stages -/

/-- The filter stage starts at line 0 of a complete output (R229, R250). -/
theorem endInflate_sound {s : State} (hs : s.Sound) : OutSound (endInflate s) := by
  unfold endInflate
  split
  · exact badDeflate_sound hs
  next hfull =>
    split
    · exact badDeflate_sound hs
    · refine State.Sound.out ⟨⟨hs.raw_le, hs.limit_le, hs.codeOut_le, fun _ => ?_⟩, nofun, hs.cart⟩
      exact ⟨of_not_not hfull, 0, Nat.zero_le _, (Nat.zero_mul _).symm, (Nat.zero_mul _).symm⟩

theorem scriptStage_ne_scanlines (S : Bytes) : scriptStage S ≠ .scanlines := by
  unfold scriptStage
  split
  · decide
  · split
    · decide
    · split
      · decide
      · decide

@[simp] theorem State.splitPayload_cfg (s : State) : s.splitPayload.cfg = s.cfg := (s.storeBlock_writes _ _).cfg

theorem splitPayload_sound {s : State} (hs : s.Sound) : s.splitPayload.Sound := by
  rw [State.Sound, State.splitPayload_cfg]
  exact hs

/-- The script decoder starts with an empty output, the initial table and a limit within `CODE_CAP` (R270 to
R275). -/
theorem endScanlines_sound {s : State} (hs : s.Sound) : OutSound (endScanlines s) := by
  have hlimit : scriptLimit s.cfg.codeCap s.splitPayload.dec.script ≤ s.splitPayload.cfg.codeCap := by
    rw [State.splitPayload_cfg]
    exact Nat.min_le_right _ _
  have hsplit := splitPayload_sound hs
  refine State.Sound.out ?_
  exact hsplit.withDec hsplit.raw_le hlimit (Nat.zero_le _) (scriptStage_ne_scanlines _) fun _ => List.Perm.refl _

/-- The script length recorded is the length of the output, within `CODE_CAP` (R480). -/
theorem markLoaded_sound {s : State} (hs : s.Sound) : s.markLoaded.Sound :=
  ⟨hs.1, hs.table, hs.codeOut_le, fun h => absurd h.symm Bool.false_ne_true⟩

theorem finishLoad_sound {s : State} (hs : s.Sound) : OutSound (finishLoad s) := by
  have hsaved : s.markLoaded.applySave.Sound := (markLoaded_sound hs).of_loader (State.loader_applySave _)
  have hdec : s.markLoaded.applySave.dec = s.dec := (State.loader_eq_iff.mp (State.loader_applySave _)).2.1
  have hstart := hsaved.withIdle
  rw [hdec] at hstart
  exact ((callLoad_keepsLoader _).sound hstart).andThen fun u hu => (hu.of_loader (u.loader_returns _)).out

theorem advance_sound {s : State} (hs : s.Sound) : OutSound (advance s) := by
  unfold advance
  split
  · exact endInflate_sound hs
  · exact endScanlines_sound hs
  · exact finishLoad_sound hs
  · exact finishLoad_sound hs
  · exact finishLoad_sound hs
  all_goals exact hs.out

/-! ## The decoder -/

/-- A filter byte stands for a scanline token. -/
theorem runToken_of_decodeFilter {ft : Nat} {i : Instr} (h : decodeFilter ft = .ok i) :
    i.isCommand = false ∧ ∃ pred, ∀ u, runToken i u = u.scanline pred := by
  unfold decodeFilter at h
  split at h
  case h_6 => cases h
  all_goals
    cases h
    exact ⟨rfl, _, fun _ => rfl⟩

/-- The filter stage fetches a filter byte before the end of its input, and moves behind it. -/
theorem filterFetch_token {d : Decoder} {i : Instr} {pos : Nat} (h : filterFetch d = .token i pos) :
    d.inPos < d.rawCap ∧ pos = d.inPos + 1 ∧ ∃ ft, decodeFilter ft = .ok i := by
  unfold filterFetch at h
  split at h
  · cases h
  next hpos =>
    split at h
    · cases h
    · split at h
      · cases h
      next hft =>
        cases h
        exact ⟨Nat.lt_of_not_le hpos, rfl, _, hft⟩

theorem fetch_of_scanlines {s : State} (hstage : s.dec.stage = .scanlines) : fetch s = filterFetch s.dec := by
  rw [fetch, hstage]

/-- A decoder step, its tokens executed by anything that executes stream tokens as the loader does and keeps the
invariant outside the filter stage. -/
theorem decoderAct_sound {run : Instr → State → Out} (heq : ∀ i u, i.isCommand = false → run i u = runToken i u)
    (hrun : ∀ i u, u.Sound → u.dec.stage ≠ .scanlines → OutSound (run i u)) {s : State} (hs : s.Sound) :
    OutSound (decoderAct run s) := by
  unfold decoderAct
  split
  next i pos hfetch =>
    by_cases hstage : s.dec.stage = .scanlines
    · rw [fetch_of_scanlines hstage] at hfetch
      obtain ⟨hpos, rfl, ft, hft⟩ := filterFetch_token hfetch
      obtain ⟨htoken, pred, hpred⟩ := runToken_of_decodeFilter hft
      rw [heq _ _ htoken, hpred]
      exact scanline_sound hs hstage hpos pred
    · exact hrun i _ (hs.consume hstage pos) hstage
  next => exact advance_sound hs
  next => exact (hs.raiseLoadError _).out
  next => exact outSound_fault _

theorem decoderStep_sound {s : State} (hs : s.Sound) : OutSound (decoderStep s) :=
  decoderAct_sound (fun _ _ _ => rfl) (fun i _ hu hstage => runToken_sound hu hstage i) hs

theorem runDecoder_sound (n : Nat) {s : State} (hs : s.Sound) : OutSound (runDecoder n s) := by
  induction n generalizing s with
  | zero => exact hs.out
  | succ n ih =>
    unfold runDecoder
    split
    · exact hs.out
    · exact (decoderStep_sound hs).andThen fun _ hu => ih hu

/-! ## The loader -/

theorem resetCore_sound (s : State) : s.resetCore.Sound :=
  ⟨⟨Nat.zero_le _, Nat.zero_le _, Nat.zero_le _, nofun⟩, nofun, Nat.zero_le _, fun _ => rfl⟩

theorem loadPng_sound {s : State} (hs : s.Sound) (file : Bytes) : OutSound (loadPng s file) := by
  unfold loadPng
  split
  · exact (hs.raiseLoadError _).out
  · exact runDecoder_sound _ (hs.withDec_inflate (Nat.zero_le _) rfl rfl (blockHeader_free rfl))

/-- A line that would pass `CODE_CAP` is not appended (R312). -/
theorem textLines_sound {s : State} (hs : s.Sound) (sec : Section) (row : Nat) (lines : List Bytes) :
    (s.textLines sec row lines).1.Sound := by
  induction lines generalizing s sec row with
  | nil => exact hs
  | cons ln lines ih =>
    unfold State.textLines
    split
    · exact ih hs _ 0
    · split
      · dsimp only
        split
        · exact hs
        next hcap => exact ih (hs.withCodeOut (Nat.le_of_not_lt hcap)) sec row
      · exact ih (hs.of_loader (s.loader_dataLine sec ln row)) sec (row + 1)

theorem loadTextCart_sound {s : State} (hs : s.Sound) (file : Bytes) : OutSound (loadTextCart s file) := by
  have hread : (s.loadText file).1.Sound := textLines_sound (hs.withCodeOut (Nat.zero_le _)) .none 0 _
  unfold loadTextCart
  dsimp only
  split
  · exact finishLoad_sound hread
  · exact (hread.raiseLoadError _).out

/-- A load starts from the reset core, whatever state it is issued in. -/
theorem execLoadCart_sound (src : CartSource) (s : State) : OutSound (execLoadCart src s) := by
  have hreset := resetCore_sound s
  cases src with
  | readFailure => exact (hreset.raiseLoadError _).out
  | image file sav =>
    have hgiven : (s.resetCore.withDec { s.resetCore.dec with file := file, sav := sav }).Sound :=
      hreset.withDec hreset.raw_le hreset.limit_le hreset.codeOut_le nofun hreset.table
    unfold execLoadCart
    dsimp only
    split
    · exact (hgiven.raiseLoadError _).out
    · exact loadPng_sound hgiven file
    · exact loadTextCart_sound hgiven file

/-! ## Every instruction, and the step -/

/-- Every instruction outside the filter stage: a token, one of the two commands that build the loader's registers
anew, or a command that leaves them alone. -/
theorem exec_sound {s : State} (hs : s.Sound) (hstage : s.dec.stage ≠ .scanlines) (i : Instr) :
    OutSound (exec i s) := by
  cases hc : i.isCommand with
  | false => exact exec_eq_runToken hc s ▸ runToken_sound hs hstage i
  | true =>
    by_cases hreset : i = .reset
    · subst hreset
      exact ((resetCore_sound s).of_loader s.resetCore.loader_noResult).out
    · by_cases hload : ∃ src, i = .loadCart src
      · obtain ⟨src, rfl⟩ := hload
        exact execLoadCart_sound src s
      · exact (exec_keepsLoader hc hreset (fun src h => hload ⟨src, h⟩) s).sound hs

theorem portStep_sound {s : State} (hs : s.Sound) (hidle : s.dec.stage = .idle) : OutSound (portStep s) := by
  have hpop : s.popPort.Sound := hs.of_loader s.loader_popPort
  have hstage : s.popPort.dec.stage ≠ .scanlines := by
    rw [State.popPort_dec, hidle]
    decide
  unfold portStep
  split
  · exact hs.out
  · split
    · exact exec_sound hpop hstage _
    · exact hs.out
    · exact hs.out
    all_goals exact (hpop.of_loader s.popPort.loader_ignored).out

/-- Settles O59: on the ports every instruction keeps the invariant, and while a stage runs every token does. -/
theorem stepKeepsSound : Obligations.StepKeepsSound := by
  intro s t _ hs hstep
  by_cases hidle : s.dec.stage = .idle
  · exact portStep_sound hs hidle t (step_of_idle hidle ▸ hstep)
  · have hact : OutSound (decoderAct exec s) :=
      decoderAct_sound (fun _ u hi => exec_eq_runToken hi u) (fun i _ hu hstage => exec_sound hu hstage i) hs
    exact hact t (step_of_running hidle ▸ hstep)

/-- The reset state placed at the one scanline of a 1 by 1 image. -/
def atOnlyLine : State :=
  State.reset.withDec { State.reset.dec with stage := .scanlines, imgW := 1, imgH := 1, raw := [2, 10, 20, 30, 40] }

theorem atOnlyLine_sound : atOnlyLine.Sound :=
  ⟨⟨by decide, by decide, by decide, fun _ => ⟨by decide, 0, by decide, by decide, by decide⟩⟩, nofun, by decide,
    fun _ => rfl⟩

/-- The hypotheses of `stepKeepsSound` hold of `atOnlyLine`, whose step reconstructs the line. -/
theorem step_atOnlyLine : ∃ t, step atOnlyLine = .next t ∧ t.dec.pix = [10, 20, 30, 40] ∧ t.Sound :=
  ⟨_, rfl, rfl, stepKeepsSound atOnlyLine _ (by decide +kernel) atOnlyLine_sound rfl⟩

end Sys2Proof.Machine
end

section
/-! SUPPORT. The DEFLATE block headers (42_inflate.md R213, R214, R224, R225): what a header's reading says of the
fields it read, and the four tokens of the block-header stage. -/

namespace Sys2Proof

/-! ## Reading in parts -/

/-- A reading in two parts that succeeds succeeded in both. -/
theorem bind_eq_ok {ε α β : Type} {x : Except ε α} {f : α → Except ε β} {r : β} (h : (x >>= f) = .ok r) :
    ∃ a, x = .ok a ∧ f a = .ok r := by
  cases x with
  | error e => cases h
  | ok a => exact ⟨a, rfl, h⟩

theorem getBits_of_readBits {b : Bytes} {pos n v p : Nat} (h : readBits b pos n = .ok (v, p)) :
    getBits b pos n = some (v, p) := by
  unfold readBits at h
  split at h
  · cases h
  next hbits =>
    cases h
    exact hbits

/-- A field read stands at the position it was read at, and the reader behind it. -/
theorem readBits_eq_ok {b : Bytes} {pos n v p : Nat} (h : readBits b pos n = .ok (v, p)) :
    p = pos + n ∧ getBits b pos n = some (v, pos + n) := by
  have hbits := getBits_of_readBits h
  obtain ⟨rfl, -⟩ := Machine.getBits_pos hbits
  exact ⟨rfl, hbits⟩

/-! ## Code lengths -/

theorem repeatForm_base_pos (s : Nat) : 0 < (repeatForm s).1 := by
  unfold repeatForm
  split
  · decide
  · split
    · decide
    · decide

/-- The code-length loop ends with exactly the code lengths asked for (R225): an iteration adds at least one, and a
run that would pass them is rejected. -/
theorem readCodeLengths_length {cl : Huff} {b : Bytes} {total fuel pos pos' : Nat} {acc lengths : List Nat}
    (hacc : acc.length ≤ total) (hfuel : total ≤ acc.length + fuel)
    (h : readCodeLengths cl b total fuel pos acc = .ok (lengths, pos')) : lengths.length = total := by
  induction fuel generalizing pos acc with
  | zero =>
    cases h
    omega
  | succ fuel ih =>
    unfold readCodeLengths at h
    split at h
    · cases h
      omega
    · split at h
      · cases h
      next s p _ =>
        split at h
        · exact ih (by rw [List.length_append, List.length_singleton]; omega)
            (by rw [List.length_append, List.length_singleton]; omega) h
        · dsimp only at h
          split at h
          · cases h
          · split at h
            · cases h
            next k _ _ =>
              split at h
              · cases h
              next hroom =>
                have hbase := repeatForm_base_pos s
                exact ih (by rw [List.length_append, List.length_replicate]; omega)
                  (by rw [List.length_append, List.length_replicate]; omega) h

/-- What R225 asks of a code: not over-subscribed, and a single code of length 1 if incomplete. -/
theorem acceptableCode_spec {l : List Nat} (h : acceptableCode l = true) :
    0 ≤ huffLeft l ∧ (0 < huffLeft l → l.length = l.count 0 + l.count 1) := by
  simp only [acceptableCode, Bool.or_eq_true, Bool.and_eq_true, beq_iff_eq, decide_eq_true_eq] at h
  obtain hcomplete | ⟨hpos, hsingle⟩ := h
  · exact ⟨hcomplete.ge, fun hpos => absurd hcomplete hpos.ne'⟩
  · exact ⟨hpos.le, fun _ => hsingle⟩

/-! ## The dynamic header -/

/-- The fields a dynamic header is read from (R118, R225): the three counts and the code-length code. -/
def DynamicFields (b : Bytes) (pos hlit hdist : Nat) : Prop :=
  ∃ hclen sent p, getBits b pos 5 = some (hlit, pos + 5) ∧ getBits b (pos + 5) 5 = some (hdist, pos + 10) ∧
    getBits b (pos + 10) 4 = some (hclen, pos + 14) ∧ readTriples b (pos + 14) (hclen + 4) = .ok (sent, p) ∧
    huffLeft (clLengths sent) = 0

/-- A dynamic header that is read: its counts are in bounds, and its code lengths split into an acceptable
literal/length code with an end-of-block code and an acceptable distance code. -/
theorem readDynamic_eq_ok {b : Bytes} {pos pos' : Nat} {lens : List Nat × List Nat}
    (h : readDynamic b pos = .ok (lens, pos')) :
    ∃ (hlit hdist : Nat) (lengths : List Nat), DynamicFields b pos hlit hdist ∧ hlit + 257 ≤ 286 ∧ hdist + 1 ≤ 30 ∧
      lengths.length = hlit + 257 + (hdist + 1) ∧ lengths.getD 256 0 ≠ 0 ∧
      lens = (lengths.take (hlit + 257), lengths.drop (hlit + 257)) ∧
      acceptableCode lens.1 = true ∧ acceptableCode lens.2 = true := by
  obtain ⟨⟨hlit, p₁⟩, hread₁, h⟩ := bind_eq_ok h
  obtain ⟨⟨hdist, p₂⟩, hread₂, h⟩ := bind_eq_ok h
  obtain ⟨⟨hclen, p₃⟩, hread₃, h⟩ := bind_eq_ok h
  obtain ⟨rfl, hbits₁⟩ := readBits_eq_ok hread₁
  obtain ⟨rfl, hbits₂⟩ := readBits_eq_ok hread₂
  obtain ⟨rfl, hbits₃⟩ := readBits_eq_ok hread₃
  dsimp only at h
  split at h
  · cases h
  next hcounts =>
    obtain ⟨⟨sent, p₄⟩, hsent, h⟩ := bind_eq_ok h
    dsimp only at h
    split at h
    · cases h
    next hcl =>
      obtain ⟨⟨lengths, p₅⟩, hlengths, h⟩ := bind_eq_ok h
      dsimp only at h
      split at h
      · cases h
      next heob =>
        split at h
        next hcodes =>
          cases h
          obtain ⟨hlitCode, hdistCode⟩ := Bool.and_eq_true_iff.mp hcodes
          exact ⟨hlit, hdist, lengths, ⟨hclen, sent, p₄, hbits₁, hbits₂, hbits₃, hsent, of_not_not hcl⟩, by omega,
            by omega, readCodeLengths_length (Nat.zero_le _) (Nat.le_add_left _ _) hlengths, heob, rfl, hlitCode,
            hdistCode⟩
        next => cases h

theorem getD_take {l : List Nat} {n k : Nat} (hk : k < n) : (l.take n).getD k 0 = l.getD k 0 := by
  rw [List.getD_eq_getElem?_getD, List.getD_eq_getElem?_getD, List.getElem?_take_of_lt hk]

end Sys2Proof

namespace Sys2Proof.Machine

/-! ## Stored blocks -/

/-- A token in its own stage means what it does there. -/
theorem State.inStage_of_eq {s : State} {st : Stage} (h : s.dec.stage = st) (o : Out) : s.inStage st o = o := if_pos h

theorem storedLengths_eq_some {D : Bytes} {pos len nlen p₁ p₂ : Nat}
    (hlen : getBits D (alignUp pos) 16 = some (len, p₁)) (hnlen : getBits D p₁ 16 = some (nlen, p₂)) : storedLengths D pos = some (len, nlen, p₂) := by
  rw [storedLengths, hlen]
  dsimp only
  rw [hnlen]

/-- A stored block whose first field cannot be read, or whose second cannot be read behind it. -/
theorem storedLengths_eq_none {D : Bytes} {pos : Nat}
    (h : getBits D (alignUp pos) 16 = none ∨ getBits D (alignUp pos + 16) 16 = none) :
    storedLengths D pos = none := by
  unfold storedLengths
  split
  · rfl
  next len p hlen =>
    obtain ⟨rfl, -⟩ := getBits_pos hlen
    have hnlen : getBits D (alignUp pos + 16) 16 = none := h.resolve_left (by rw [hlen]; nofun)
    rw [hnlen]

/-- A stored block whose complement field and bounds are in order is copied (R214). -/
theorem State.copyStored_of_ok {s : State} {len pos : Nat} (final : Bool)
    (hinput : pos + 8 * len ≤ 8 * s.dec.stream.length) (hcap : s.dec.raw.length + len ≤ s.dec.rawCap) :
    s.copyStored final len (65535 - len) pos =
      .next (s.withDec { s.dec with
        raw := s.dec.raw ++ (s.dec.stream.drop (pos / 8)).take len
        inPos := pos + 8 * len
        bfinal := final
        stage := blockEnd final }) := by
  rw [State.copyStored, if_neg (not_not.mpr rfl), if_neg (Nat.not_lt.mpr hinput), if_neg (Nat.not_lt.mpr hcap)]

/-- A stored block fails before a byte is copied (R214). -/
theorem State.copyStored_of_not_ok {s : State} {len nlen pos : Nat} (final : Bool)
    (h : nlen ≠ 65535 - len ∨ 8 * s.dec.stream.length < pos + 8 * len ∨ s.dec.rawCap < s.dec.raw.length + len) :
    s.copyStored final len nlen pos = badDeflate s := by
  unfold State.copyStored
  split
  · rfl
  next hcomplement =>
    split
    · rfl
    next hinput => exact if_pos ((h.resolve_left hcomplement).resolve_left hinput)

theorem execDfStored_of_copy {s : State} (hstage : s.dec.stage = .blockHeader) {len nlen pos : Nat} (final : Bool)
    (h : storedLengths s.dec.stream s.dec.inPos = some (len, nlen, pos)) :
    execDfStored final s = s.copyStored final len nlen pos := by
  rw [execDfStored, State.inStage_of_eq hstage, h]

theorem execDfStored_of_cut {s : State} (hstage : s.dec.stage = .blockHeader) (final : Bool)
    (h : storedLengths s.dec.stream s.dec.inPos = none) : execDfStored final s = badDeflate s := by
  rw [execDfStored, State.inStage_of_eq hstage, h]

/-- A stored block cut short, with disagreeing fields, or past a bound fails. -/
theorem execDfStored_fails {s : State} (hstage : s.dec.stage = .blockHeader) (final : Bool)
    (h : getBits s.dec.stream (alignUp s.dec.inPos) 16 = none ∨
      getBits s.dec.stream (alignUp s.dec.inPos + 16) 16 = none ∨
      ∃ len nlen, getBits s.dec.stream (alignUp s.dec.inPos) 16 = some (len, alignUp s.dec.inPos + 16) ∧
        getBits s.dec.stream (alignUp s.dec.inPos + 16) 16 = some (nlen, alignUp s.dec.inPos + 32) ∧
        (nlen ≠ 65535 - len ∨ 8 * s.dec.stream.length < alignUp s.dec.inPos + 32 + 8 * len ∨
          s.dec.rawCap < s.dec.raw.length + len)) : execDfStored final s = badDeflate s := by
  obtain hcut | hcut | ⟨len, nlen, hlen, hnlen, hbad⟩ := h
  · exact execDfStored_of_cut hstage final (storedLengths_eq_none (.inl hcut))
  · exact execDfStored_of_cut hstage final (storedLengths_eq_none (.inr hcut))
  · rw [execDfStored_of_copy hstage final (storedLengths_eq_some hlen hnlen)]
    exact State.copyStored_of_not_ok final hbad

/-! ## Compressed blocks -/

theorem execDfFixed_of_header {s : State} (hstage : s.dec.stage = .blockHeader) (final : Bool) :
    execDfFixed final s =
      .next (s.withDec (s.dec.openBlock final (fixedLitLengths, List.replicate 30 5) s.dec.inPos)) :=
  State.inStage_of_eq hstage _

theorem execDfDynamic_of_ok {s : State} (hstage : s.dec.stage = .blockHeader) (final : Bool)
    {lens : List Nat × List Nat} {pos : Nat} (h : readDynamic s.dec.stream s.dec.inPos = .ok (lens, pos)) :
    execDfDynamic final s = .next (s.withDec (s.dec.openBlock final lens pos)) := by
  rw [execDfDynamic, State.inStage_of_eq hstage, h]

theorem execDfDynamic_of_error {s : State} (hstage : s.dec.stage = .blockHeader) (final : Bool) {e : Reject}
    (h : readDynamic s.dec.stream s.dec.inPos = .error e) : execDfDynamic final s = badDeflate s := by
  rw [execDfDynamic, State.inStage_of_eq hstage, h]

/-- Settles O45: each header by its kind, then what a dynamic header that is read satisfies. -/
theorem blockHeaders : Obligations.BlockHeaders := by
  refine ⟨fun s final hstage => ⟨?_, ?_, ?_, ?_, ?_, ?_⟩, ?_⟩
  · intro len pos hlen hnlen hinput hcap
    exact (execDfStored_of_copy hstage final (storedLengths_eq_some hlen hnlen)).trans
      (State.copyStored_of_ok final hinput hcap)
  · rintro _ rfl hfails
    exact execDfStored_fails hstage final hfails
  · intro e he
    exact execDfDynamic_of_error hstage final he
  · exact execDfFixed_of_header hstage final
  · intro lens pos hok
    exact execDfDynamic_of_ok hstage final hok
  · exact State.inStage_of_eq hstage _
  · intro b pos lens pos' hok
    obtain ⟨hlit, hdist, lengths, ⟨hclen, sent, p, hbits₁, hbits₂, hbits₃, hsent, hcl⟩, hlitBound, hdistBound,
      htotal, heob, rfl, hlitCode, hdistCode⟩ := readDynamic_eq_ok hok
    have hlitLength : (lengths.take (hlit + 257)).length = 257 + hlit := by
      rw [List.length_take]
      omega
    have hdistLength : (lengths.drop (hlit + 257)).length = 1 + hdist := by
      rw [List.length_drop]
      omega
    refine ⟨⟨hlit, hdist, hclen, sent, p, hbits₁, hbits₂, hbits₃, hsent, hcl, hlitLength, hdistLength⟩,
      ?_, ?_, ?_, ?_⟩
    · exact hlitLength.trans_le (by omega)
    · exact hdistLength.trans_le (by omega)
    · rwa [getD_take (by omega)]
    · rintro l (rfl | rfl)
      · exact acceptableCode_spec hlitCode
      · exact acceptableCode_spec hdistCode

/-- The reset state placed behind the three bits of a stored block's header, the block of one byte next. -/
def atStoredBlock : State :=
  State.reset.withDec { State.reset.dec with
    stage := .blockHeader
    inPos := 3
    imgW := 1
    imgH := 1
    idat := [0x78, 0x01, 0x01, 0x01, 0x00, 0xFE, 0xFF, 0x2A] }

/-- The hypotheses of the stored clause of `blockHeaders` hold of `atStoredBlock`, whose block's byte is copied. -/
theorem exec_atStoredBlock : ∃ t, exec (.dfStored true) atStoredBlock = .next t ∧ t.dec.raw = [0x2A] ∧
    t.dec.inPos = 48 ∧ t.dec.stage = .inflateDone :=
  ⟨_, (blockHeaders.1 atStoredBlock true rfl).1 1 40 (by decide +kernel) (by decide +kernel) (by decide) (by decide),
    rfl, rfl, rfl⟩

end Sys2Proof.Machine
end

section
/-! SUPPORT. The tokens of a compressed block (42_inflate.md R227, R228, R230), and what a copy from the output back
into it produces. -/

namespace Sys2Proof.Machine

/-! ## The copy -/

theorem getD_of_prefix {xs ys : Bytes} (h : xs <+: ys) {k : Nat} (hk : k < xs.length) :
    ys.getD k 0 = xs.getD k 0 := by
  obtain ⟨zs, rfl⟩ := h
  exact List.getD_append _ _ _ _ hk

/-- A copy leaves the bytes before it. -/
theorem copyBack_getD_old (dist n : Nat) {out : Bytes} {k : Nat} (hk : k < out.length) :
    (copyBack dist n out).getD k 0 = out.getD k 0 :=
  getD_of_prefix (copyBack_prefix dist n out) hk

/-- Every byte a copy appends is the one its distance back, the bytes just written included (R230). -/
theorem copyBack_getD_new {dist n : Nat} {out : Bytes} {k : Nat} (hdist : dist ≤ out.length) (hlow : out.length ≤ k)
    (hhigh : k < out.length + n) :
    (copyBack dist n out).getD k 0 = (copyBack dist n out).getD (k - dist) 0 := by
  obtain rfl | hpos := Nat.eq_zero_or_pos dist
  · rfl
  induction n generalizing out with
  | zero => omega
  | succ n ih =>
    have hlen : (out ++ [out.getD (out.length - dist) 0]).length = out.length + 1 := List.length_append
    rw [copyBack]
    obtain rfl | hlater := hlow.eq_or_lt
    · have hwritten : (out ++ [out.getD (out.length - dist) 0]).getD out.length 0 =
          out.getD (out.length - dist) 0 := by
        rw [List.getD_append_right _ _ _ _ (Nat.le_refl _), Nat.sub_self]
        rfl
      rw [copyBack_getD_old _ _ (by omega), copyBack_getD_old _ _ (by omega), hwritten,
        List.getD_append _ _ _ _ (by omega)]
    · exact ih (by omega) (by omega) (by omega)

/-! ## The tokens -/

theorem execDfLit_of_room {s : State} (hstage : s.dec.stage = .blockTokens) (sym : Byte)
    (h : s.dec.raw.length < s.dec.rawCap) :
    execDfLit sym s = .next (s.withDec { s.dec with raw := s.dec.raw ++ [sym] }) := by
  rw [execDfLit, State.inStage_of_eq hstage, if_neg (Nat.not_le.mpr h)]

theorem execDfLit_of_full {s : State} (hstage : s.dec.stage = .blockTokens) (sym : Byte)
    (h : s.dec.rawCap ≤ s.dec.raw.length) : execDfLit sym s = badDeflate s := by
  rw [execDfLit, State.inStage_of_eq hstage, if_pos h]

theorem execDfLen_of_ok {s : State} (hstage : s.dec.stage = .blockTokens) {l le d de : Nat}
    (hwf : wfDfLen l le d de = true) (hdist : copyDist d de ≤ s.dec.raw.length)
    (hcap : s.dec.raw.length + copyLength l le ≤ s.dec.rawCap) :
    execDfLen l le d de s =
      .next (s.withDec { s.dec with raw := copyBack (copyDist d de) (copyLength l le) s.dec.raw }) := by
  rw [execDfLen, State.inStage_of_eq hstage, hwf, if_neg (by decide), if_neg (Nat.not_lt.mpr hdist),
    if_neg (Nat.not_lt.mpr hcap)]

/-- A copy past a bound fails before a byte is copied (R230). -/
theorem execDfLen_of_not_ok {s : State} (hstage : s.dec.stage = .blockTokens) {l le d de : Nat}
    (hwf : wfDfLen l le d de = true)
    (h : s.dec.raw.length < copyDist d de ∨ s.dec.rawCap < s.dec.raw.length + copyLength l le) :
    execDfLen l le d de s = badDeflate s := by
  rw [execDfLen, State.inStage_of_eq hstage, hwf, if_neg (by decide)]
  split
  · rfl
  next hdist => exact if_pos (h.resolve_left hdist)

/-- Settles O46: each token in its stage. -/
theorem blockTokens : Obligations.BlockTokens := by
  intro s sym l le d de hstage
  refine ⟨execDfLit_of_room hstage sym, execDfLit_of_full hstage sym, State.inStage_of_eq hstage _, ?_,
    execDfLen_of_not_ok hstage⟩
  intro hwf hdist hcap
  have hlen := copyBack_length (copyDist d de) (copyLength l le) s.dec.raw
  exact ⟨_, execDfLen_of_ok hstage hwf hdist hcap, hlen, fun _ hk => copyBack_getD_old _ _ hk,
    fun _ hlow hhigh => copyBack_getD_new hdist hlow (hlen ▸ hhigh)⟩

/-- The reset state placed in a compressed block with two bytes written, of the capacity five. -/
def atCopy : State :=
  State.reset.withDec { State.reset.dec with stage := .blockTokens, imgW := 1, imgH := 1, raw := [0x61, 0x62] }

/-- The hypotheses of the copying clause of `blockTokens` hold of `atCopy`: three bytes from two back, the third
one just written. -/
theorem exec_atCopy : ∃ raw, exec (.dfLen 257 0 1 0) atCopy = .next (atCopy.withDec { atCopy.dec with raw := raw }) ∧
    raw.length = 5 ∧ raw.getD 4 0 = raw.getD 2 0 := by
  obtain ⟨-, -, -, hcopy, -⟩ := blockTokens atCopy 0 257 0 1 0 rfl
  obtain ⟨raw, hexec, hlen, -, hnew⟩ := hcopy (by decide) (by decide) (by decide)
  exact ⟨raw, hexec, hlen, hnew 4 (by decide) (hlen ▸ by decide)⟩

end Sys2Proof.Machine
end

section
/-! SUPPORT. The scanline filters (43_png_unfilter_extract.md R251 to R256): what each byte of a reconstructed line is,
and where its neighbours stand in the image. -/

namespace Sys2Proof.Machine

/-! ## The reconstruction of a line -/

/-- The byte to the left stands in what is reconstructed so far, so the finished line has the same one. -/
theorem leftOf_of_prefix {xs ys : Bytes} (h : xs <+: ys) {i : Nat} (hi : i ≤ xs.length) :
    leftOf ys i = leftOf xs i := by
  unfold leftOf
  split
  next hleft => exact getD_of_prefix h (by omega)
  next => rfl

/-- Reconstruction only appends to what is reconstructed so far. -/
theorem filterLine_prefix (pred : Byte → Byte → Byte → Byte) (above line xs : Bytes) :
    line <+: filterLine pred above line xs := by
  induction xs generalizing line with
  | nil => exact List.prefix_refl line
  | cons x xs ih => exact (List.prefix_append _ _).trans (ih _)

/-- Every reconstructed byte is the filtered one plus the predictor of its neighbours in the finished line and the line
above (R251). -/
theorem filterLine_getD (pred : Byte → Byte → Byte → Byte) (above line : Bytes) {xs : Bytes} {k : Nat}
    (hk : k < xs.length) :
    (filterLine pred above line xs).getD (line.length + k) 0 =
      xs.getD k 0 + pred (leftOf (filterLine pred above line xs) (line.length + k))
        (above.getD (line.length + k) 0) (leftOf above (line.length + k)) := by
  induction xs generalizing line k with
  | nil => exact absurd hk (Nat.not_lt_zero k)
  | cons x xs ih =>
    cases k with
    | zero =>
      have hleft := leftOf_of_prefix (filterLine_prefix pred above line (x :: xs)) (Nat.le_refl _)
      rw [Nat.add_zero, hleft, filterLine, getD_of_prefix (filterLine_prefix ..) (by simp),
        List.getD_append_right _ _ _ _ (Nat.le_refl _), Nat.sub_self]
      rfl
    | succ k =>
      have hrest := ih (line ++ [x + pred (leftOf line line.length) (above.getD line.length 0)
        (leftOf above line.length)]) (Nat.lt_of_succ_lt_succ hk)
      rwa [List.length_append, List.length_singleton, Nat.add_assoc, Nat.add_comm 1 k] at hrest

/-! ## A line in the image -/

theorem getD_drop_take (l : Bytes) (p : Nat) {n k : Nat} (hk : k < n) :
    ((l.drop p).take n).getD k 0 = l.getD (p + k) 0 := by
  rw [List.getD_eq_getElem?_getD, List.getD_eq_getElem?_getD, List.getElem?_take_of_lt hk, List.getElem?_drop]

/-- The line above begins one stride before the end of the image, and counts as 0 above the first line (R251). -/
theorem Decoder.lastLine_getD {d : Decoder} {y : Nat} (hpix : d.pix.length = y * d.stride) (k : Nat) :
    d.lastLine.getD k 0 = if 0 < y then d.pix.getD ((y - 1) * d.stride + k) 0 else 0 := by
  cases y with
  | zero =>
    have hempty : d.pix = [] := List.length_eq_zero_iff.mp (hpix.trans (Nat.zero_mul _))
    rw [Decoder.lastLine, hempty, List.drop_nil]
    rfl
  | succ y =>
    rw [Decoder.lastLine, hpix, Nat.succ_mul, Nat.add_sub_cancel, if_pos y.succ_pos, Nat.add_sub_cancel,
      List.getD_eq_getElem?_getD, List.getElem?_drop, List.getD_eq_getElem?_getD]

/-- The line above, read in the image that has the next line already. -/
theorem Decoder.lastLine_getD_append {d : Decoder} {y : Nat} (hpix : d.pix.length = y * d.stride) (line : Bytes)
    {k : Nat} (hk : k < d.stride) :
    d.lastLine.getD k 0 = if 0 < y then (d.pix ++ line).getD ((y - 1) * d.stride + k) 0 else 0 := by
  rw [Decoder.lastLine_getD hpix]
  split
  next hy =>
    have hlast : (y - 1) * d.stride + d.stride = y * d.stride := by
      rw [← Nat.succ_mul, Nat.succ_eq_add_one, Nat.sub_add_cancel hy]
    exact (List.getD_append _ _ _ _ (by omega)).symm
  next => rfl

/-- The byte to the left, read in the image the line is appended to. -/
theorem leftOf_eq_append {pix line : Bytes} {n : Nat} (hpix : pix.length = n) (k : Nat) :
    leftOf line k = if 4 ≤ k then (pix ++ line).getD (n + k - 4) 0 else 0 := by
  subst hpix
  unfold leftOf
  split
  next hleft =>
    rw [Nat.add_sub_assoc hleft, List.getD_append_right _ _ _ _ (Nat.le_add_right _ _), Nat.add_sub_cancel_left]
  next => rfl

/-- The byte above left, read in the image that has the next line already. -/
theorem Decoder.leftOf_lastLine {d : Decoder} {y : Nat} (hpix : d.pix.length = y * d.stride) (line : Bytes) {k : Nat}
    (hk : k < d.stride) :
    leftOf d.lastLine k = if 4 ≤ k ∧ 0 < y then (d.pix ++ line).getD ((y - 1) * d.stride + k - 4) 0 else 0 := by
  unfold leftOf
  by_cases hleft : 4 ≤ k
  · rw [if_pos hleft, Decoder.lastLine_getD_append hpix line (by omega), Nat.add_sub_assoc hleft]
    simp only [hleft, true_and]
  · rw [if_neg hleft, if_neg (fun h => hleft h.1)]

/-! ## The filter bytes -/

/-- A filter byte whose whole line follows it reconstructs that line (R251). -/
theorem State.scanline_of_line {s : State} (hstage : s.dec.stage = .scanlines)
    (hline : s.dec.inPos + s.dec.stride ≤ s.dec.raw.length) (pred : Byte → Byte → Byte → Byte) :
    ((s.dec.raw.drop s.dec.inPos).take s.dec.stride).length = s.dec.stride ∧
    s.scanline pred = .next (s.withDec { s.dec with
      pix := s.dec.pix ++ filterLine pred s.dec.lastLine [] ((s.dec.raw.drop s.dec.inPos).take s.dec.stride)
      inPos := s.dec.inPos + s.dec.stride }) := by
  have hlength : ((s.dec.raw.drop s.dec.inPos).take s.dec.stride).length = s.dec.stride := by
    rw [List.length_take, List.length_drop]
    omega
  refine ⟨hlength, ?_⟩
  rw [State.scanline, State.inStage_of_eq hstage]
  exact if_neg (Nat.not_lt.mpr hlength.ge)

/-- Each filter byte runs its predictor over its line (R252 to R256). -/
theorem exec_filter (s : State) {i : Instr} {pred : Byte → Byte → Byte → Byte}
    (h : (i = .fltNone ∧ pred = fun _ _ _ => 0) ∨ (i = .fltSub ∧ pred = fun a _ _ => a) ∨
      (i = .fltUp ∧ pred = fun _ b _ => b) ∨
      (i = .fltAvg ∧ pred = fun a b _ => BitVec.ofNat 8 ((a.toNat + b.toNat) / 2)) ∨
      (i = .fltPaeth ∧ pred = paeth)) : exec i s = s.scanline pred := by
  obtain ⟨rfl, rfl⟩ | ⟨rfl, rfl⟩ | ⟨rfl, rfl⟩ | ⟨rfl, rfl⟩ | ⟨rfl, rfl⟩ := h
  all_goals rfl

/-! ## The Paeth predictor -/

/-- The distance of a byte from a + b - c (R256). -/
def paethDist (a b c v : Byte) : Nat := ((a.toNat + b.toNat - c.toNat : Int) - v.toNat).natAbs

theorem paeth_eq (a b c : Byte) :
    paeth a b c = if paethDist a b c a ≤ paethDist a b c b ∧ paethDist a b c a ≤ paethDist a b c c then a
      else if paethDist a b c b ≤ paethDist a b c c then b else c := rfl

/-- Settles O47: the line by its bytes, each neighbour where it stands in the image, and the Paeth predictor by its
three branches. -/
theorem filtersReconstruct : Obligations.FiltersReconstruct := by
  refine ⟨?_, fun a b c => ⟨fun ha => ?_, fun ha hb => ?_, fun ha hc => ?_⟩⟩
  · intro s y i pred hstage hline hpix hfilter
    obtain ⟨hxs, hscan⟩ := State.scanline_of_line hstage hline pred
    refine ⟨_, (exec_filter s hfilter).trans hscan, ?_, ?_, ?_⟩
    · rw [List.length_append, filterLine_length, hxs, hpix, List.length_nil, Nat.zero_add, Nat.succ_mul]
    · intro k hk
      exact List.getD_append _ _ _ _ (hpix ▸ hk)
    · intro k hk
      have hbyte := filterLine_getD pred s.dec.lastLine [] (hk.trans_eq hxs.symm)
      rw [List.length_nil, Nat.zero_add, getD_drop_take _ _ hk, leftOf_eq_append hpix,
        Decoder.lastLine_getD_append hpix _ hk, Decoder.leftOf_lastLine hpix _ hk] at hbyte
      rw [List.getD_append_right _ _ _ _ (hpix ▸ Nat.le_add_right _ _), hpix, Nat.add_sub_cancel_left]
      exact hbyte
  · exact (paeth_eq a b c).trans (if_pos ha)
  · exact (paeth_eq a b c).trans ((if_neg ha).trans (if_pos hb))
  · exact (paeth_eq a b c).trans ((if_neg ha).trans (if_neg (Nat.not_le.mpr hc)))

/-- The reset state placed behind the Paeth filter byte of the second line of a 2 by 2 image. -/
def atSecondLine : State :=
  State.reset.withDec { State.reset.dec with
    stage := .scanlines
    imgW := 2
    imgH := 2
    inPos := 10
    raw := [0, 10, 20, 30, 40, 50, 60, 70, 80, 4, 1, 2, 3, 4, 5, 6, 7, 8]
    pix := [10, 20, 30, 40, 50, 60, 70, 80] }

/-- The hypotheses of `filtersReconstruct` hold of `atSecondLine`, where a byte of the second pixel has a neighbour on
each side. -/
theorem exec_atSecondLine : ∃ pix, exec .fltPaeth atSecondLine =
      .next (atSecondLine.withDec { atSecondLine.dec with pix := pix, inPos := 18 }) ∧ pix.length = 16 ∧
    pix.getD 12 0 = 5 + paeth (pix.getD 8 0) (pix.getD 4 0) (pix.getD 0 0) := by
  obtain ⟨pix, hexec, hlen, -, hbyte⟩ := filtersReconstruct.1 atSecondLine 1 .fltPaeth paeth rfl (by decide) rfl
    (.inr (.inr (.inr (.inr ⟨rfl, rfl⟩))))
  exact ⟨pix, hexec, hlen, hbyte 4 (by decide)⟩

end Sys2Proof.Machine
end

section
/-! SUPPORT. The tokens of the script decoders (44_code_decompress.md R271, R276 to R280, R291 to R293, R300): the copy
cut at the limit that both compressed formats share, the raw run, and the raw script. -/

namespace Sys2Proof.Machine

/-! ## Output below the limit -/

/-- Below the limit a byte is appended (R271). -/
theorem Decoder.emitCode_of_room {d : Decoder} (h : d.codeOut.length < d.limit) (b : Byte) :
    d.emitCode b = { d with codeOut := d.codeOut ++ [b] } := if_pos h

/-- An offset that reaches before the output fails (R278, R293). -/
theorem State.copyCode_of_before {s : State} {offset : Nat} (h : s.dec.codeOut.length < offset) (length : Nat) :
    s.copyCode offset length = badCodeStream s := if_pos h

/-- A back-reference into the output appends its length, cut at the limit, each byte from its offset back. -/
theorem State.copyCode_appends {s : State} {offset : Nat} (length : Nat) (hoffset : offset ≤ s.dec.codeOut.length)
    (hlimit : s.dec.codeOut.length ≤ s.dec.limit) :
    ∃ out, s.copyCode offset length = .next (s.withDec { s.dec with codeOut := out }) ∧
      out.length = min (s.dec.codeOut.length + length) s.dec.limit ∧
      (∀ k, k < s.dec.codeOut.length → out.getD k 0 = s.dec.codeOut.getD k 0) ∧
      (∀ k, s.dec.codeOut.length ≤ k → k < out.length → out.getD k 0 = out.getD (k - offset) 0) := by
  have hlen := copyBack_length offset (min length (s.dec.limit - s.dec.codeOut.length)) s.dec.codeOut
  exact ⟨_, if_neg (Nat.not_lt.mpr hoffset), hlen.trans (by omega), fun _ hk => copyBack_getD_old _ _ hk,
    fun _ hlow hhigh => copyBack_getD_new hoffset hlow (hlen ▸ hhigh)⟩

/-! ## The new format -/

theorem execNfLit_of_room {s : State} (hstage : s.dec.stage = .newFormat) (index : Byte)
    (h : s.dec.codeOut.length < s.dec.limit) :
    execNfLit index s = .next (s.withDec { s.dec with
      mtf := promote s.dec.mtf index.toNat
      codeOut := s.dec.codeOut ++ [s.dec.mtf.getD index.toNat 0] }) := by
  have hemit := Decoder.emitCode_of_room (d := { s.dec with mtf := promote s.dec.mtf index.toNat }) h
  rw [execNfLit, State.inStage_of_eq hstage, hemit]

/-- The three widths of a reference's offset field all copy from one more than the field back (R278). -/
theorem exec_newReference {s : State} (hstage : s.dec.stage = .newFormat) {i : Instr} {offset length : Nat}
    (h : (∃ f, i = .nfRef15 f length ∧ offset = f.toNat + 1) ∨ (∃ f, i = .nfRef10 f length ∧ offset = f.toNat + 1) ∨
      (∃ f, i = .nfRef5 f length ∧ offset = f.toNat + 1)) : exec i s = s.copyCode offset length := by
  obtain ⟨f, rfl, rfl⟩ | ⟨f, rfl, rfl⟩ | ⟨f, rfl, rfl⟩ := h
  all_goals exact State.inStage_of_eq hstage _

/-- A run of non-zero bytes that its zero ends before the bound is read whole, and the zero is consumed (R280). -/
theorem rawRun_of_terminated {T bs : Bytes} {n pos : Nat} (hnonzero : ∀ b ∈ bs, b ≠ 0) (hbound : bs.length < n)
    (hbytes : ∀ k, k < bs.length → getBits T (pos + 8 * k) 8 = some ((bs.getD k 0).toNat, pos + 8 * k + 8))
    (hzero : getBits T (pos + 8 * bs.length) 8 = some (0, pos + 8 * bs.length + 8)) :
    rawRun T n pos = (bs, pos + 8 * bs.length + 8, false) := by
  induction bs generalizing n pos with
  | nil =>
    obtain ⟨n, rfl⟩ := Nat.exists_eq_add_of_lt hbound
    simp only [rawRun, List.length_nil, Nat.mul_zero, Nat.add_zero] at hzero ⊢
    simp only [hzero, if_true]
  | cons b bs ih =>
    obtain ⟨n, rfl⟩ := Nat.exists_eq_succ_of_ne_zero (Nat.ne_zero_of_lt hbound)
    have hfirst : getBits T pos 8 = some (b.toNat, pos + 8) := hbytes 0 (Nat.succ_pos _)
    have hb : b.toNat ≠ 0 := fun h => hnonzero b List.mem_cons_self (BitVec.eq_of_toNat_eq h)
    have hnext : ∀ k, pos + 8 + 8 * k = pos + 8 * (k + 1) := by omega
    have hrest : rawRun T n (pos + 8) = (bs, pos + 8 + 8 * bs.length + 8, false) := by
      refine ih (fun x hx => hnonzero x (List.mem_cons_of_mem _ hx)) (Nat.lt_of_succ_lt_succ hbound)
        (fun k hk => ?_) ?_
      · rw [hnext]
        exact hbytes (k + 1) (Nat.succ_lt_succ hk)
      · rw [hnext]
        exact hzero
    simp only [rawRun, hfirst, hb, if_false, hrest, BitVec.ofNat_toNat, BitVec.setWidth_eq, hnext, List.length_cons]

theorem execNfRaw_of_terminated {s : State} (hstage : s.dec.stage = .newFormat) {bs : Bytes} {pos : Nat}
    (h : rawRun s.codeStream (s.dec.limit - s.dec.codeOut.length) s.dec.inPos = (bs, pos, false)) :
    execNfRaw s = .next (s.withDec { s.dec with codeOut := s.dec.codeOut ++ bs, inPos := pos }) := by
  rw [execNfRaw, State.inStage_of_eq hstage, h, ← hstage]
  rfl

/-- Settles O48: the literal below the limit, the references by where their offset reaches, and the raw run by its
terminating zero. -/
theorem newFormatTokens : Obligations.NewFormatTokens := by
  intro s hstage
  refine ⟨fun index hroom => execNfLit_of_room hstage index hroom, fun i offset length href => ⟨?_, ?_⟩, ?_⟩
  · intro hbefore
    exact (exec_newReference hstage href).trans (State.copyCode_of_before hbefore length)
  · intro hoffset hlimit
    obtain ⟨out, hcopy, hout⟩ := State.copyCode_appends length hoffset hlimit
    exact ⟨out, (exec_newReference hstage href).trans hcopy, hout⟩
  · intro bs hnonzero hroom hbytes hzero
    exact execNfRaw_of_terminated hstage (rawRun_of_terminated hnonzero (by omega) hbytes hzero)

/-- The reset state placed before a raw run of one byte and its zero, with one byte written and a limit of three. -/
def atRawRun : State :=
  State.reset.withDec { State.reset.dec with
    stage := .newFormat
    script := [0x00, 0x70, 0x78, 0x61, 0x00, 0x03, 0x00, 0x00, 0x21, 0x00]
    codeOut := [0x61]
    limit := 3 }

/-- The hypotheses of the raw run's clause of `newFormatTokens` hold of `atRawRun`. -/
theorem exec_atRawRun :
    exec .nfRaw atRawRun = .next (atRawRun.withDec { atRawRun.dec with codeOut := [0x61, 0x21], inPos := 16 }) := by
  obtain ⟨-, -, hraw⟩ := newFormatTokens atRawRun rfl
  refine hraw [0x21] (by decide) (by decide) (fun k hk => ?_) (by decide)
  obtain rfl := Nat.lt_one_iff.mp hk
  decide

/-! ## The legacy format -/

theorem execLgEsc_of_room {s : State} (hstage : s.dec.stage = .legacy) (h : s.dec.codeOut.length < s.dec.limit)
    (b1 : Byte) : execLgEsc b1 s = .next (s.withDec { s.dec with codeOut := s.dec.codeOut ++ [b1] }) := by
  rw [execLgEsc, State.inStage_of_eq hstage, Decoder.emitCode_of_room h]

theorem execLgSym_of_room {s : State} (hstage : s.dec.stage = .legacy) (h : s.dec.codeOut.length < s.dec.limit)
    (b0 : Byte) :
    execLgSym b0 s = .next (s.withDec { s.dec with
      codeOut := s.dec.codeOut ++ [legacySymbol s.cfg.legacyAlphabet b0] }) := by
  rw [execLgSym, State.inStage_of_eq hstage, Decoder.emitCode_of_room h]

/-- The default arithmetic of a back-reference (R135): offset 0 fails, any other offset copies. -/
theorem execLgRef_of_reference {s : State} (hstage : s.dec.stage = .legacy) (hcfg : s.cfg.legacyRef = .reference)
    (b0 b1 : Byte) :
    execLgRef b0 b1 s =
      if (b0.toNat - 0x3C) * 16 + b1.toNat % 16 = 0 then badCodeStream s
      else s.copyCode ((b0.toNat - 0x3C) * 16 + b1.toNat % 16) (b1.toNat / 16 + 2) := by
  rw [execLgRef, State.inStage_of_eq hstage, hcfg]
  rfl

/-! ## The raw script -/

/-- The bytes before the first zero are all the bytes, or a zero stands behind them. -/
theorem takeWhile_nonzero_end (S : Bytes) :
    S.takeWhile (· != 0) = S ∨ S[(S.takeWhile (· != 0)).length]? = some 0 := by
  induction S with
  | nil => exact .inl rfl
  | cons b S ih =>
    by_cases hb : b = 0
    · subst hb
      exact .inr rfl
    · rw [List.takeWhile_cons_of_pos (p := (· != 0)) (bne_iff_ne.mpr hb)]
      exact ih.imp (congrArg (b :: ·)) id

/-- The raw script ends at `CODE_CAP`, at the end of its region or before a zero (R300). -/
theorem rawScriptBytes_end (cap : Nat) (S : Bytes) :
    (rawScriptBytes cap S).length = cap ∨ rawScriptBytes cap S = S ∨
      S[(rawScriptBytes cap S).length]? = some 0 := by
  obtain hcap | hfits := Nat.le_total cap (S.takeWhile (· != 0)).length
  · exact .inl (List.length_take_of_le hcap)
  · rw [rawScriptBytes, List.take_of_length_le hfits]
    exact .inr (takeWhile_nonzero_end S)

/-- Settles O49: the codes below the limit, the back-reference by its offset, and the raw script by where it ends. -/
theorem legacyAndRawTokens : Obligations.LegacyAndRawTokens := by
  intro s
  refine ⟨execLgEsc_of_room, fun hstage hroom b0 _ _ => ⟨_, execLgSym_of_room hstage hroom b0, ?_⟩,
    fun hstage hcfg b0 b1 _ => ⟨?_, ?_⟩, fun hstage => ?_⟩
  · intro halphabet
    rw [halphabet]
    rfl
  · intro hbad
    refine (execLgRef_of_reference hstage hcfg b0 b1).trans ?_
    split
    · rfl
    next hpos => exact State.copyCode_of_before (hbad.resolve_left hpos) _
  · intro hpos hoffset hlimit
    obtain ⟨out, hcopy, hout⟩ := State.copyCode_appends (b1.toNat / 16 + 2) hoffset hlimit
    exact ⟨out, (execLgRef_of_reference hstage hcfg b0 b1).trans ((if_neg hpos.ne').trans hcopy), hout⟩
  · obtain ⟨hprefix, hnonzero, hcap⟩ := rawScriptBytes_spec s.cfg.codeCap s.dec.script
    exact ⟨_, State.inStage_of_eq hstage _, hprefix, hnonzero, hcap, rawScriptBytes_end _ _⟩

/-- The reset state placed in a legacy script with two bytes written and a limit of five. -/
def atLegacyReference : State :=
  State.reset.withDec { State.reset.dec with stage := .legacy, codeOut := [0x6C, 0x6F], limit := 5 }

/-- The hypotheses of the back-reference's clause of `legacyAndRawTokens` hold of `atLegacyReference`: four bytes from
two back, cut at the limit, the third one just written. -/
theorem exec_atLegacyReference : ∃ out, exec (.lgRef 0x3C 0x22) atLegacyReference =
      .next (atLegacyReference.withDec { atLegacyReference.dec with codeOut := out }) ∧
    out.length = 5 ∧ out.getD 4 0 = out.getD 2 0 := by
  obtain ⟨-, -, href, -⟩ := legacyAndRawTokens atLegacyReference
  obtain ⟨out, hexec, hlen, -, hnew⟩ :=
    (href rfl rfl 0x3C 0x22 (by decide)).2 (by decide) (by decide) (by decide)
  exact ⟨out, hexec, hlen, hnew 4 (by decide) (hlen ▸ by decide)⟩

end Sys2Proof.Machine
end

section
/-! SUPPORT. What the commands of a trace leave alone (60_exceptions.md R489): each of them ends in a next state, and
none changes a register but the memory, the channels, the pattern registers and the ports it delivers on. -/

namespace Sys2Proof.Machine

/-! ## The registers behind a trace -/

/-- A state with everything blanked that a command of a trace may change (R489). -/
def State.background (s : State) : State :=
  { s with mem := [], channels := Channels.atReset 0, mus := Music.atReset, result := none, sampleOut := [] }

/-- Two states with the same background agree in every field that it does not blank. -/
theorem State.field_of_background {s t : State} (h : t.background = s.background) {β : Type} (f : State → β)
    (hf : ∀ s : State, f s.background = f s) : f t = f s := by rw [← hf t, h, hf]

@[simp] theorem State.background_noResult (s : State) : s.noResult.background = s.background := rfl

theorem WritesOnly.background {P : Nat → Prop} {s t : State} (h : WritesOnly P s t) : t.background = s.background :=
  h.field State.background fun _ _ => rfl

@[simp] theorem State.background_poke (s : State) (a : Nat) (b : Byte) : (s.poke a b).background = s.background :=
  (s.poke_writes a b).background

@[simp] theorem State.background_poke16 (s : State) (a : Nat) (v : Half) : (s.poke16 a v).background = s.background :=
  (s.poke16_writes a v).background

@[simp] theorem State.background_pokePairs (s : State) (l : List (Nat × Byte)) :
    (s.pokePairs l).background = s.background := (s.pokePairs_writes l).background

@[simp] theorem State.background_storeBlock (s : State) (a : Nat) (bs : Bytes) :
    (s.storeBlock a bs).background = s.background := (s.storeBlock_writes a bs).background

@[simp] theorem State.background_colorStep (s : State) (c : Operand) : (s.colorStep c).background = s.background :=
  (s.colorStep_writes c).background

@[simp] theorem State.background_plotAll (s : State) (l : List (Int × Int)) :
    (s.plotAll l).background = s.background := (s.plotAll_screen l).background

theorem State.background_markAll (s : State) (l : List (BitVec 4 × Bool)) :
    (s.markAll l).background = s.background := by
  induction l generalizing s with
  | nil => rfl
  | cons q l ih => exact (ih _).trans (s.background_poke _ _)

theorem State.background_playSfx (s : State) (n : Int) (channel offset : Operand) :
    (s.playSfx n channel offset).background = s.background := by
  unfold State.playSfx
  split
  · rfl
  · split <;> rfl

/-! ## Outcomes -/

/-- The outcome is a next state, with the background of `s`. -/
def Completes (s : State) (o : Out) : Prop := ∃ t, o = .next t ∧ t.background = s.background

theorem Completes.next {s t : State} (h : t.background = s.background) : Completes s (.next t) := ⟨t, rfl, h⟩

/-- A command that returns nothing. -/
theorem Completes.noResult {s t : State} (h : t.background = s.background) : Completes s (.next t.noResult) :=
  .next (t.background_noResult.trans h)

/-- A command that only writes bytes. -/
theorem WritesOnly.completes {P : Nat → Prop} {s t : State} (h : WritesOnly P s t) : Completes s (.next t.noResult) :=
  .noResult h.background

/-- A required operand is unsupplied. -/
theorem completes_ignored (s : State) : Completes s (.next s.ignored) := .next rfl

theorem completes_noResult (s : State) : Completes s (.next s.noResult) := .noResult rfl

theorem Completes.andThen {s : State} {o : Out} {f : State → Out} (ho : Completes s o) (hf : ∀ u, Completes u (f u)) :
    Completes s (andThen o f) := by
  obtain ⟨u, rfl, hu⟩ := ho
  obtain ⟨t, ht, hut⟩ := hf u
  exact ⟨t, ht, hut.trans hu⟩

/-! ## Memory commands and rasterizer state -/

theorem readCmd_completes (n : Nat) (addr : Operand) (s : State) : Completes s (.next (readCmd n addr s)) := by
  cases addr with
  | none => exact completes_ignored s
  | some a => exact .next rfl

theorem writeCmd_completes (n : Nat) (addr v : Operand) (s : State) : Completes s (.next (writeCmd n addr v s)) := by
  unfold writeCmd
  split
  · exact (s.memWrite_writes _ _ _).completes
  · exact completes_ignored s

theorem execBulkCopy_completes (dst src len : Operand) (s : State) : Completes s (execBulkCopy dst src len s) := by
  unfold execBulkCopy
  split
  · split
    · exact completes_noResult s
    · exact (s.storeBlock_writes _ _).completes
  · exact completes_ignored s

theorem execBulkFill_completes (dst value len : Operand) (s : State) :
    Completes s (execBulkFill dst value len s) := by
  unfold execBulkFill
  split
  · split
    · exact completes_noResult s
    · exact (s.storeBlock_writes _ _).completes
  · exact completes_ignored s

theorem execSetClip_completes (x y w h : Operand) (s : State) : Completes s (execSetClip x y w h s) := by
  unfold execSetClip
  split
  · exact (s.pokePairs_writes _).completes
  · exact (s.pokePairs_writes _).completes

theorem execSetColor_completes (c : Operand) (s : State) : Completes s (execSetColor c s) := by
  cases c with
  | none => exact (s.poke_writes _ _).completes
  | some w => exact (s.poke_writes _ _).completes

theorem execSetPalette_completes (c0 c1 p : Operand) (s : State) : Completes s (execSetPalette c0 c1 p s) := by
  cases c0 with
  | none =>
    cases c1 with
    | none => exact (s.pokePairs_writes _).completes
    | some b => exact completes_noResult s
  | some a =>
    cases c1 with
    | none => exact completes_noResult s
    | some b =>
      unfold execSetPalette
      dsimp only
      split
      · exact (s.poke_writes _ _).completes
      · split
        · exact (s.poke_writes _ _).completes
        · exact completes_noResult s

theorem execSetTransparent_completes (c t : Operand) (s : State) : Completes s (execSetTransparent c t s) := by
  cases c with
  | none => exact .noResult (s.background_markAll _)
  | some a => exact (s.poke_writes _ _).completes

/-! ## Drawing -/

theorem execSetPixel_completes (x y c : Operand) (s : State) : Completes s (execSetPixel x y c s) := by
  unfold execSetPixel
  split
  · exact .noResult ((State.plot_screen _ _ _).background.trans (s.background_colorStep c))
  · exact completes_ignored s

theorem execGetPixel_completes (x y : Operand) (s : State) : Completes s (execGetPixel x y s) := by
  unfold execGetPixel
  split
  · exact .next rfl
  · exact completes_ignored s

theorem execLine_completes (x0 y0 x1 y1 c : Operand) (s : State) : Completes s (execLine x0 y0 x1 y1 c s) := by
  unfold execLine
  split
  · exact .noResult (by simp [State.recordLineEnd])
  · exact completes_ignored s

/-- The colour step and the points of a pen-based command. -/
theorem completes_colorStep_plotAll (s : State) (c : Operand) (l : List (Int × Int)) :
    Completes s (.next ((s.colorStep c).plotAll l).noResult) := .noResult (by simp)

theorem rectCmd_completes (points : Int → Int → Int → Int → List (Int × Int)) (x0 y0 x1 y1 c : Operand) (s : State) :
    Completes s (.next (rectCmd points x0 y0 x1 y1 c s)) := by
  unfold rectCmd
  split
  · exact completes_colorStep_plotAll s c _
  · exact completes_ignored s

theorem circleCmd_completes (points : Int → Int → Int → List (Int × Int)) (x y r c : Operand) (s : State) :
    Completes s (.next (circleCmd points x y r c s)) := by
  unfold circleCmd
  split
  · split
    · exact (s.colorStep_writes c).completes
    · exact completes_colorStep_plotAll s c _
  · exact completes_ignored s

theorem ellipseCmd_completes (points : Int → Int → Int → Int → List (Int × Int)) (x0 y0 x1 y1 c : Operand)
    (s : State) : Completes s (.next (ellipseCmd points x0 y0 x1 y1 c s)) := by
  unfold ellipseCmd
  split
  · exact completes_colorStep_plotAll s c _
  · exact completes_ignored s

theorem execSprite_completes (n x y w h flipX flipY : Operand) (s : State) :
    Completes s (execSprite n x y w h flipX flipY s) := by
  unfold execSprite
  split
  · exact (s.drawSprite_screen _ _ _ _ _ _ _).completes
  · exact completes_ignored s

theorem execSpriteScaled_completes (sx sy sw sh dx dy dw dh flipX flipY : Operand) (s : State) :
    Completes s (execSpriteScaled sx sy sw sh dx dy dw dh flipX flipY s) := by
  unfold execSpriteScaled
  split
  · exact (s.drawScaled_screen _ _ _ _ _ _ _ _ _ _).completes
  · exact completes_ignored s

theorem execTileMap_completes (cx0 cy0 sx sy cw ch layers : Operand) (s : State) :
    Completes s (execTileMap cx0 cy0 sx sy cw ch layers s) := by
  unfold execTileMap
  split
  · exact (s.drawCells_screen _ _).completes
  · exact completes_ignored s

/-! ## Sound -/

theorem execSfx_completes (n channel offset : Operand) (s : State) : Completes s (execSfx n channel offset s) := by
  cases n with
  | none => exact completes_ignored s
  | some n => exact .noResult (s.background_playSfx (sval n) channel offset)

theorem execMusic_completes (n : Operand) (s : State) : Completes s (execMusic n s) := by
  unfold execMusic
  split
  · split
    · exact .noResult rfl
    · split
      · exact .noResult rfl
      · exact completes_noResult s
  · exact completes_ignored s

/-! ## Traces -/

/-- The commands that may stand in a trace. -/
theorem exec_completes_of_inTrace {i : Instr} (hi : i.inTrace = true) (s : State) : Completes s (exec i s) := by
  cases i with
  | read8 | read16 | read32 => exact readCmd_completes _ _ s
  | write8 | write16 | write32 => exact writeCmd_completes _ _ _ s
  | bulkCopy dst src len => exact execBulkCopy_completes dst src len s
  | bulkFill dst value len => exact execBulkFill_completes dst value len s
  | setClip x y w h => exact execSetClip_completes x y w h s
  | setCamera x y => exact .noResult (by simp)
  | setColor c => exact execSetColor_completes c s
  | setPalette c0 c1 p => exact execSetPalette_completes c0 c1 p s
  | setTransparent c t => exact execSetTransparent_completes c t s
  | setFillPattern pattern trans => exact .noResult (by simp)
  | setCursor x y c => exact .noResult (by simp)
  | clear c => exact .noResult ((State.background_pokePairs _ _).trans (s.background_storeBlock _ _))
  | setPixel x y c => exact execSetPixel_completes x y c s
  | getPixel x y => exact execGetPixel_completes x y s
  | line x0 y0 x1 y1 c => exact execLine_completes x0 y0 x1 y1 c s
  | rect | rectFill => exact rectCmd_completes _ _ _ _ _ _ s
  | circle | circleFill => exact circleCmd_completes _ _ _ _ _ s
  | ellipse | ellipseFill => exact ellipseCmd_completes _ _ _ _ _ _ s
  | sprite n x y w h flipX flipY => exact execSprite_completes n x y w h flipX flipY s
  | spriteScaled sx sy sw sh dx dy dw dh flipX flipY =>
    exact execSpriteScaled_completes sx sy sw sh dx dy dw dh flipX flipY s
  | tileMap cx0 cy0 sx sy cw ch layers => exact execTileMap_completes cx0 cy0 sx sy cw ch layers s
  | text str x y c => exact .noResult (by simp)
  | sfx n channel offset => exact execSfx_completes n channel offset s
  | music n => exact execMusic_completes n s
  | sample => exact .next rfl
  | _ => exact absurd hi Bool.false_ne_true

/-- A trace runs to its end and leaves the background alone (R489). -/
theorem runTrace_completes (l : List TraceItem) (s : State) : Completes s (runTrace l s) := by
  induction l generalizing s with
  | nil => exact .next rfl
  | cons t l ih =>
    have hitem : Completes s (runTraceItem t s) := by
      rw [runTraceItem_eq_exec]
      exact exec_completes_of_inTrace t.property s
    exact hitem.andThen ih

end Sys2Proof.Machine
end

section
/-! SUPPORT. The text cart loader (30_encoding.md R140; 45_text_cart.md R310, R312) and the end of a load
(60_exceptions.md R480 to R482). -/

namespace Sys2Proof.Machine

/-! ## Lines -/

/-- A line without a trailing carriage return is kept whole. -/
theorem dropCr_of_no_cr {ln : Bytes} (h : ln.getLast? ≠ some 0x0D) : dropCr ln = ln := if_neg h

theorem splitLines_newline (cur rest : Bytes) :
    splitLines cur (0x0A :: rest) = dropCr cur.reverse :: splitLines [] rest := if_pos rfl

/-- Bytes that are no newline are gathered. -/
theorem splitLines_append {ln : Bytes} (hln : (0x0A : Byte) ∉ ln) (cur rest : Bytes) :
    splitLines cur (ln ++ rest) = splitLines (ln.reverse ++ cur) rest := by
  induction ln generalizing cur with
  | nil => rfl
  | cons b ln ih =>
    obtain ⟨hb, hln⟩ := not_or.mp (mt List.mem_cons.mpr hln)
    calc splitLines cur (b :: ln ++ rest)
        _ = splitLines (b :: cur) (ln ++ rest) := if_neg (Ne.symm hb)
        _ = splitLines ((b :: ln).reverse ++ cur) rest := by
          rw [ih hln, List.reverse_cons, List.append_assoc, List.singleton_append]

/-- A line ended by a newline. -/
theorem splitLines_line {ln : Bytes} (hln : (0x0A : Byte) ∉ ln) (hcr : ln.getLast? ≠ some 0x0D) (rest : Bytes) :
    splitLines [] (ln ++ 0x0A :: rest) = ln :: splitLines [] rest := by
  rw [splitLines_append hln, splitLines_newline, List.append_nil, List.reverse_reverse, dropCr_of_no_cr hcr]

/-- The bytes behind the last newline are one more line. -/
theorem splitLines_last {ln : Bytes} (hne : ln ≠ []) (hln : (0x0A : Byte) ∉ ln) (hcr : ln.getLast? ≠ some 0x0D) :
    splitLines [] ln = [ln] := by
  have hgather : splitLines [] ln = splitLines ln.reverse [] := by
    simpa using splitLines_append hln [] []
  rw [hgather, splitLines, if_neg (mt List.reverse_eq_nil_iff.mp hne), List.reverse_reverse, dropCr_of_no_cr hcr]

/-! ## Tags -/

/-- Every tag, known or unknown, starts with two underscores (R318). -/
theorem tagSection_default_of_plain {ln : Bytes} (h : ln.take 2 ≠ [0x5F, 0x5F]) :
    tagSection TextTags.default ln = none := by
  have hne {tag : Bytes} (htag : tag.take 2 = [0x5F, 0x5F]) : ln ≠ tag := by
    rintro rfl
    exact h htag
  have hunknown : ¬ looksLikeTag ln = true := by
    simp only [looksLikeTag, Bool.and_eq_true, beq_iff_eq]
    exact fun ⟨⟨_, htag⟩, _⟩ => h htag
  rw [tagSection, if_neg (hne rfl), if_neg (hne rfl), if_neg (hne rfl), if_neg (hne rfl), if_neg (hne rfl),
    if_neg (hne rfl), if_neg (hne rfl), if_neg hunknown]

/-- The script's tag is the first one tried. -/
theorem tagSection_lua (t : TextTags) : tagSection t t.lua = some .script := if_pos rfl

/-! ## The lines in order -/

section
variable {s : State} {sec : Section} {row : Nat} {ln : Bytes} {rest : List Bytes}

/-- A tag starts its section at row 0. -/
theorem State.textLines_tag {sec' : Section} (htag : tagSection s.cfg.textTags ln = some sec') :
    s.textLines sec row (ln :: rest) = s.textLines sec' 0 rest := by
  simp only [State.textLines, htag]

/-- A line before the first section is skipped. -/
theorem State.textLines_none (htag : tagSection s.cfg.textTags ln = none) :
    s.textLines .none row (ln :: rest) = s.textLines .none (row + 1) rest := by
  simp only [State.textLines, htag, reduceCtorEq, if_false, State.dataLine]

/-- A script line that fits `CODE_CAP` is appended (R312). -/
theorem State.textLines_script (htag : tagSection s.cfg.textTags ln = none)
    (hfit : (appendLine s.dec.codeOut ln).length ≤ s.cfg.codeCap) :
    s.textLines .script row (ln :: rest) =
      (s.withDec { s.dec with codeOut := appendLine s.dec.codeOut ln }).textLines .script row rest := by
  simp only [State.textLines, htag, if_true, if_neg (Nat.not_lt.mpr hfit)]

end

/-! ## A cart whose script is one line -/

/-- The text cart with the given script section under the default tags. -/
def textCart (body : Bytes) : Bytes := textHeader ++ 0x0A :: (TextTags.default.lua ++ 0x0A :: body)

/-- A script line as the loader keeps it: not empty, without newline and trailing carriage return, and no tag. -/
structure PlainLine (body : Bytes) : Prop where
  nonempty : body ≠ []
  noNewline : (0x0A : Byte) ∉ body
  noReturn : body.getLast? ≠ some 0x0D
  noTag : body.take 2 ≠ [0x5F, 0x5F]

theorem detectContainer_textCart (body : Bytes) : detectContainer (textCart body) = some .text := rfl

theorem splitLines_textCart {body : Bytes} (h : PlainLine body) :
    splitLines [] (textCart body) = [textHeader, TextTags.default.lua, body] := by
  rw [textCart, splitLines_line (by decide) (by decide), splitLines_line (by decide) (by decide),
    splitLines_last h.nonempty h.noNewline h.noReturn]

/-- The three lines of the cart, read with no script text yet: the header is skipped, the tag starts the script, the
line is its text (R310, R312). -/
theorem State.textLines_textCart {s : State} {body : Bytes} (h : PlainLine body)
    (htags : s.cfg.textTags = TextTags.default) (hempty : s.dec.codeOut = []) (hfit : body.length ≤ s.cfg.codeCap) :
    s.textLines .none 0 [textHeader, TextTags.default.lua, body] =
      (s.withDec { s.dec with codeOut := body }, true) := by
  have hheader : tagSection s.cfg.textTags textHeader = none := htags ▸ tagSection_default_of_plain (by decide)
  have hlua : tagSection s.cfg.textTags TextTags.default.lua = some .script := htags ▸ tagSection_lua _
  have hbody : tagSection s.cfg.textTags body = none := htags ▸ tagSection_default_of_plain h.noTag
  have hout : appendLine s.dec.codeOut body = body := if_pos hempty
  rw [State.textLines_none hheader, State.textLines_tag hlua, State.textLines_script hbody (by rwa [hout]), hout]
  rfl

theorem loadTextCart_textCart {s : State} {body : Bytes} (h : PlainLine body)
    (htags : s.cfg.textTags = TextTags.default) (hfit : body.length ≤ s.cfg.codeCap) :
    loadTextCart s (textCart body) = finishLoad (s.withDec { s.dec with codeOut := body }) := by
  have hread : s.loadText (textCart body) = (s.withDec { s.dec with codeOut := body }, true) := by
    rw [State.loadText, splitLines_textCart h]
    exact State.textLines_textCart h htags rfl hfit
  rw [loadTextCart, hread]
  rfl

/-! ## The save blob -/

theorem State.applySave_writes (s : State) :
    WritesOnly (fun x => persistBase ≤ x ∧ x < persistEnd) s s.applySave := by
  unfold State.applySave
  split
  · split
    next hlen =>
      exact (s.storeBlock_writes _ _).mono fun x hx => by rwa [hlen] at hx
    next => exact .refl _ s
  · exact .refl _ s

/-- A byte read after the save blob is applied (R481): an exact blob is in the save slots. -/
theorem State.peek_applySave (s : State) (x : Nat) :
    s.applySave.peek x = match s.dec.sav with
      | some blob => if blob.length = 256 ∧ 0x5E00 ≤ x ∧ x < 0x5F00 then blob.getD (x - 0x5E00) 0 else s.peek x
      | none => s.peek x := by
  unfold State.applySave
  cases s.dec.sav with
  | none => rfl
  | some blob =>
    dsimp only
    split
    next hlen =>
      rw [s.peek_storeBlock _ _ (by rw [hlen]; decide), hlen]
      simp [persistBase]
    next hlen => rw [if_neg fun h => hlen h.1]

/-! ## The end of a load -/

/-- The controller as the script engine's answer to the load leaves it (R482, R491). -/
def Controller.afterLoad (v : Controller) (a : LoadAnswer) : Controller :=
  if a.ok then v.withHooks a else { v with state := .error, errorMsg := a.msg }

theorem State.recordLoad_eq (s : State) (a : LoadAnswer) : s.recordLoad a = s.withVm (s.vm.afterLoad a) := by
  unfold State.recordLoad Controller.afterLoad
  split <;> rfl

/-- The engine's next answer is taken, its trace run, and its outcome recorded (R482). -/
theorem callLoad_of_answer {s : State} {a : LoadAnswer} {rest : List LoadAnswer} (h : s.loadAnswers = a :: rest) :
    ∃ t, callLoad s = .next (t.withVm (t.vm.afterLoad a)) ∧ t.background = s.tookLoadAnswer.background ∧
      (a.trace = [] → t = s.tookLoadAnswer) := by
  obtain ⟨t, hrun, hback⟩ := runTrace_completes a.trace s.tookLoadAnswer
  have hanswer : s.nextLoadAnswer = a := by rw [State.nextLoadAnswer, h]
  refine ⟨t, ?_, hback, fun htrace => ?_⟩
  · rw [callLoad, hanswer, hrun, andThen_next, State.recordLoad_eq]
  · rw [htrace] at hrun
    cases hrun
    rfl

/-- A load whose script text stands in `code_out` ends in a next state: the registers, the script engine's answer and
the result; without commands of the engine the memory is what the save blob left (R480, steps 5 to 8). -/
theorem finishLoad_of_answer {s : State} {a : LoadAnswer} {rest : List LoadAnswer} (h : s.loadAnswers = a :: rest) :
    ∃ t, finishLoad s = .next t ∧ t.result = some (BitVec.ofNat 32 s.dec.codeOut.length) ∧ t.errCause = .noError ∧
      t.cart = { s.cart with valid := true, codeLen := s.dec.codeOut.length } ∧
      t.dec = { s.dec with stage := .idle } ∧ t.loadAnswers = rest ∧ t.vm = s.vm.afterLoad a ∧
      (a.trace = [] → t.mem = s.markLoaded.applySave.mem) := by
  have happly : s.markLoaded.applySave = s.markLoaded.withMem s.markLoaded.applySave.mem :=
    s.markLoaded.applySave_writes.1
  have hload : (s.markLoaded.applySave.withDec { s.dec with stage := .idle }).loadAnswers = a :: rest := by
    rw [happly]
    exact h
  obtain ⟨t, hcall, hback, hquiet⟩ := callLoad_of_answer hload
  have hframe : t.background = (s.markLoaded.withDec { s.dec with stage := .idle }).tookLoadAnswer.background := by
    rw [hback, happly]
    rfl
  have herr : t.errCause = .noError := State.field_of_background hframe State.errCause fun _ => rfl
  have hcart : t.cart = _ := State.field_of_background hframe State.cart fun _ => rfl
  have hdec : t.dec = _ := State.field_of_background hframe State.dec fun _ => rfl
  have hrest : t.loadAnswers = s.loadAnswers.drop 1 := State.field_of_background hframe State.loadAnswers fun _ => rfl
  have hvm : t.vm = s.vm := State.field_of_background hframe State.vm fun _ => rfl
  refine ⟨(t.withVm (t.vm.afterLoad a)).returns (BitVec.ofNat 32 s.dec.codeOut.length), ?_, rfl, herr, hcart, hdec,
    hrest.trans (congrArg (List.drop 1) h), congrArg (Controller.afterLoad · a) hvm, fun htrace => ?_⟩
  · rw [finishLoad, hcall, andThen_next]
  · rw [hquiet htrace]
    rfl

/-! ## The whole load -/

/-- A reset keeps the script engine's answers still to come (log entry 4). -/
@[simp] theorem State.resetCore_loadAnswers (s : State) : s.resetCore.loadAnswers = s.loadAnswers :=
  (State.pokePairs_writes (s.withMem (keepPersist s.mem)) _).field State.loadAnswers fun _ _ => rfl

/-- A text cart goes to the text loader, behind the reset (R480). -/
theorem exec_loadCart_textCart {s : State} {body : Bytes} (sav : Option Bytes) (h : PlainLine body)
    (htags : s.cfg.textTags = TextTags.default) (hfit : body.length ≤ s.cfg.codeCap) :
    exec (.loadCart (.image (textCart body) sav)) s =
      finishLoad (s.resetCore.withDec { Decoder.atReset with file := textCart body, sav := sav, codeOut := body }) := by
  rw [← s.resetCore_cfg] at htags hfit
  exact loadTextCart_textCart (s := s.resetCore.withDec { Decoder.atReset with file := textCart body, sav := sav })
    h htags hfit

/-- Settles O16: the line is the script text that the load ends with. -/
theorem loadsTextScript : Obligations.LoadsTextScript := by
  intro s body sav a rest _ _ htags hanswers hne hnewline hcr htag hfit
  have hexec := exec_loadCart_textCart sav ⟨hne, hnewline, hcr, htag⟩ htags hfit
  obtain ⟨t, hfinish, hresult, herr, hcart, hdec, hrest, hvm, hmem⟩ :=
    finishLoad_of_answer (s := s.resetCore.withDec
      { Decoder.atReset with file := textCart body, sav := sav, codeOut := body })
      (s.resetCore_loadAnswers.trans hanswers)
  refine ⟨t, hexec.trans hfinish, hresult, herr, hcart, congrArg Decoder.codeOut hdec, congrArg Decoder.stage hdec,
    hrest, fun hok => ?_, fun hfail => ?_, fun htrace x => ?_⟩
  · exact hvm.trans (if_pos hok)
  · exact hvm.trans (if_neg (hfail ▸ Bool.false_ne_true))
  · exact (congrArg (Memory.get · x) (hmem htrace)).trans (State.peek_applySave _ x)

/-- The reset state with a script engine's answer to come that issues no command and reports a 60 Hz update hook. -/
def awaitingLoad : State :=
  { State.reset with loadAnswers := [⟨true, [], [], false, false, true, true⟩] }

/-- The hypotheses of `loadsTextScript` hold of a one-byte script for `awaitingLoad`; an exact save blob is in the save
slots afterwards. -/
theorem exec_loadCart_awaitingLoad : ∃ t,
    exec (.loadCart (.image (textCart [0x78]) (some (List.replicate 256 7)))) awaitingLoad = .next t ∧
      t.dec.codeOut = [0x78] ∧ t.vm.fps = .fps60 ∧ t.peek 0x5EFF = 7 := by
  obtain ⟨t, hexec, -, -, -, hout, -, -, hvm, -, hpeek⟩ :=
    loadsTextScript awaitingLoad [0x78] (some (List.replicate 256 7)) _ [] (by decide +kernel) (by decide +kernel) rfl
      rfl (by decide) (by decide) (by decide) (by decide) (by decide)
  exact ⟨t, hexec, hout, congrArg Controller.fps (hvm rfl), (hpeek rfl 0x5EFF).trans (by decide +kernel)⟩

end Sys2Proof.Machine
end

section
/-! SUPPORT. The draw-state block (10_state.md R31, R36): its fields by name, that no two of them share an address,
and what a write to one of them leaves in the others. -/

namespace Sys2Proof

/-- The fields of the draw-state block by name. -/
inductive DrawField where
  | drawPal | screenPal | clipX0 | clipY0 | clipX1 | clipY1 | pen | cursorX | cursorY | cameraX | cameraY
  | fillp | fillpTrans | lineX | lineY

/-- The fields in the order of `Layout.drawFields`. -/
def DrawField.all : List DrawField :=
  [.drawPal, .screenPal, .clipX0, .clipY0, .clipX1, .clipY1, .pen, .cursorX, .cursorY, .cameraX, .cameraY,
   .fillp, .fillpTrans, .lineX, .lineY]

theorem DrawField.mem_all (f : DrawField) : f ∈ DrawField.all := by cases f <;> simp [DrawField.all]

/-- The first address of a field. -/
def Layout.addr (l : Layout) : DrawField → Nat
  | .drawPal => l.drawPal
  | .screenPal => l.screenPal
  | .clipX0 => l.clipX0
  | .clipY0 => l.clipY0
  | .clipX1 => l.clipX1
  | .clipY1 => l.clipY1
  | .pen => l.pen
  | .cursorX => l.cursorX
  | .cursorY => l.cursorY
  | .cameraX => l.cameraX
  | .cameraY => l.cameraY
  | .fillp => l.fillp
  | .fillpTrans => l.fillpTrans
  | .lineX => l.lineX
  | .lineY => l.lineY

/-- The width of a field in bytes. -/
def DrawField.width : DrawField → Nat
  | .drawPal | .screenPal => 16
  | .cameraX | .cameraY | .fillp | .lineX | .lineY => 2
  | .clipX0 | .clipY0 | .clipX1 | .clipY1 | .pen | .cursorX | .cursorY | .fillpTrans => 1

/-- Is `a` an address of field `f`? -/
def Layout.Owns (l : Layout) (f : DrawField) (a : Nat) : Prop := l.addr f ≤ a ∧ a < l.addr f + f.width

theorem Layout.drawFields_eq (l : Layout) : l.drawFields = DrawField.all.map fun f => (l.addr f, f.width) := rfl

theorem fieldsApart_iff_pairwise (fs : List (Nat × Nat)) :
    fieldsApart fs = true ↔ fs.Pairwise fun p q => p.1 + p.2 ≤ q.1 ∨ q.1 + q.2 ≤ p.1 := by
  induction fs with
  | nil => simp [fieldsApart]
  | cons p fs ih => simp [fieldsApart, List.pairwise_cons, ih]

theorem Layout.ok_iff (l : Layout) : l.ok = true ↔
    (∀ q ∈ l.drawFields, 0x5F00 ≤ q.1 ∧ q.1 + q.2 ≤ 0x5F40) ∧
    (∀ q ∈ l.hwFields, 0x5F40 ≤ q.1 ∧ q.1 + q.2 ≤ 0x5F80) ∧
    fieldsApart l.drawFields = true ∧ fieldsApart l.hwFields = true := by
  simp only [Layout.ok, Bool.and_eq_true, List.all_eq_true, decide_eq_true_eq, and_assoc]

theorem Layout.mem_drawFields (l : Layout) (f : DrawField) : (l.addr f, f.width) ∈ l.drawFields := by
  rw [Layout.drawFields_eq]
  exact List.mem_map.mpr ⟨f, f.mem_all, rfl⟩

/-- A draw-state field lies inside the draw-state block. -/
theorem Layout.addr_bounds {l : Layout} (hl : l.ok = true) (f : DrawField) :
    0x5F00 ≤ l.addr f ∧ l.addr f + f.width ≤ 0x5F40 :=
  ((Layout.ok_iff l).mp hl).1 _ (l.mem_drawFields f)

/-- The bitmask register lies inside the hardware-state block. -/
theorem Layout.bitmask_bounds {l : Layout} (hl : l.ok = true) : 0x5F40 ≤ l.bitmask ∧ l.bitmask + 1 ≤ 0x5F80 :=
  ((Layout.ok_iff l).mp hl).2.1 (l.bitmask, 1) (by simp [Layout.hwFields])

/-- An address belongs to one draw-state field at most. -/
theorem Layout.owns_unique {l : Layout} (hl : l.ok = true) {f g : DrawField} {a : Nat} (hf : l.Owns f a)
    (hg : l.Owns g a) : f = g := by
  by_contra hne
  obtain ⟨-, -, hapart, -⟩ := (Layout.ok_iff l).mp hl
  rw [fieldsApart_iff_pairwise, Layout.drawFields_eq, List.pairwise_map] at hapart
  have hsymm : Std.Symm fun f g : DrawField =>
      l.addr f + f.width ≤ l.addr g ∨ l.addr g + g.width ≤ l.addr f := ⟨fun _ _ => Or.symm⟩
  have hfg : l.addr f + f.width ≤ l.addr g ∨ l.addr g + g.width ≤ l.addr f :=
    hapart.forall f.mem_all g.mem_all hne
  unfold Layout.Owns at hf hg
  omega

theorem Layout.owns_addr (l : Layout) (f : DrawField) : l.Owns f (l.addr f) :=
  ⟨Nat.le_refl _, by cases f <;> simp [DrawField.width]⟩

theorem Layout.addr_injective {l : Layout} (hl : l.ok = true) : Function.Injective l.addr := fun f g h =>
  Layout.owns_unique hl (l.owns_addr f) (h ▸ l.owns_addr g)

/-- Different fields start at different addresses. -/
theorem Layout.addr_nodup {l : Layout} (hl : l.ok = true) {fs : List DrawField} (h : fs.Nodup) :
    (fs.map l.addr).Nodup := h.map (Layout.addr_injective hl)

/-- An address of a draw-state field lies below the screen. -/
theorem Layout.Owns.lt {l : Layout} {f : DrawField} {a : Nat} (h : l.Owns f a) (hl : l.ok = true) : a < 0x5F40 := by
  obtain ⟨-, hend⟩ := Layout.addr_bounds hl f
  exact lt_of_lt_of_le h.2 hend

end Sys2Proof

namespace Sys2Proof.Machine

theorem addr_lt_ramSize {l : Layout} (hl : l.ok = true) (f : DrawField) : l.addr f < ramSize :=
  lt_trans ((l.owns_addr f).lt hl) (by decide)

/-- No byte of the draw state lies in the screen. -/
theorem not_inScreen_of_owns {l : Layout} (hl : l.ok = true) {f : DrawField} {a : Nat} (h : l.Owns f a) :
    ¬ inScreen a := fun hscreen => absurd hscreen.1 (by have := h.lt hl; omega)

/-! ## Reading after a write -/

/-- A 16-bit field read after writes elsewhere. -/
theorem WritesOnly.peek16 {P : Nat → Prop} {s t : State} (h : WritesOnly P s t) (hw : s.mem.wf = true) {a : Nat}
    (ha : ¬ P a) (ha' : ¬ P (a + 1)) : t.peek16 a = s.peek16 a := by
  unfold State.peek16
  rw [h.peek hw ha, h.peek hw ha']

/-- A byte read at the address it was written to. -/
theorem State.peek_poke_self {s : State} (hw : s.mem.wf = true) {a : Nat} (ha : a < ramSize) (b : Byte) :
    (s.poke a b).peek a = b := by rw [State.peek_poke s hw, if_pos ⟨rfl, ha⟩]

/-- A byte read at another address than the one written to. -/
theorem State.peek_poke_of_ne {s : State} (hw : s.mem.wf = true) {a x : Nat} (hx : x ≠ a) (b : Byte) :
    (s.poke a b).peek x = s.peek x := (s.poke_writes a b).peek hw hx

/-- A byte read after pairs stored at addresses of which no two are the same. -/
theorem State.peek_pokePairs_of_mem {s : State} (hw : s.mem.wf = true) {l : List (Nat × Byte)}
    (hnodup : (l.map (·.1)).Nodup) {x : Nat} {v : Byte} (hmem : (x, v) ∈ l) (hx : x < ramSize) :
    (s.pokePairs l).peek x = v := by
  induction l generalizing s with
  | nil => exact absurd hmem (by simp)
  | cons q l ih =>
    obtain ⟨a, b⟩ := q
    obtain ⟨hnot, hrest⟩ := List.nodup_cons.mp hnodup
    have hw' : (s.poke a b).mem.wf = true := (s.poke_writes a b).wf hw
    rcases List.mem_cons.mp hmem with heq | htail
    · obtain ⟨rfl, rfl⟩ := Prod.mk.inj heq
      exact (State.pokePairs_writes _ l).peek hw' hnot |>.trans (State.peek_poke_self hw hx v)
    · exact ih hw' hrest htail

/-! ## The views under writes -/

section
variable {P : Nat → Prop} {s t : State} (h : WritesOnly P s t) (hw : s.mem.wf = true)
include h hw

/-- A one-byte view is the same when its byte is not written. -/
theorem WritesOnly.byteView {v : Layout → Nat} (hv : ¬ P (v s.cfg.layout)) :
    t.peek (v t.cfg.layout) = s.peek (v s.cfg.layout) := by rw [h.cfg, h.peek hw hv]

/-- The clip test is the same when no clip byte is written. -/
theorem WritesOnly.inClip (hx0 : ¬ P s.cfg.layout.clipX0) (hy0 : ¬ P s.cfg.layout.clipY0)
    (hx1 : ¬ P s.cfg.layout.clipX1) (hy1 : ¬ P s.cfg.layout.clipY1) (x y : Int) : t.inClip x y = s.inClip x y := by
  have hcx0 : t.clipX0 = s.clipX0 := h.byteView hw (v := Layout.clipX0) hx0
  have hcy0 : t.clipY0 = s.clipY0 := h.byteView hw (v := Layout.clipY0) hy0
  have hcx1 : t.clipX1 = s.clipX1 := h.byteView hw (v := Layout.clipX1) hx1
  have hcy1 : t.clipY1 = s.clipY1 := h.byteView hw (v := Layout.clipY1) hy1
  unfold State.inClip
  rw [hcx0, hcy0, hcx1, hcy1]

/-- A screen pixel is the same when no byte of the screen is written. -/
theorem WritesOnly.pget_screen (hP : ∀ a, P a → ¬ inScreen a) (x y : Int) :
    t.pget screenBase x y = s.pget screenBase x y := by
  by_cases hxy : onSheet x y = true
  · rw [State.pget_on _ _ hxy, State.pget_on _ _ hxy, h.peek hw fun hp => hP _ hp (screenAddr hxy)]
  · rw [State.pget_off _ _ hxy, State.pget_off _ _ hxy]

end

/-! ## The views of a state without a result

A command ends with `noResult`; its views are read in the state before, so that no proof evaluates a command to
compare the two. -/

@[simp] theorem State.clipX0_noResult (s : State) : s.noResult.clipX0 = s.clipX0 := rfl
@[simp] theorem State.clipY0_noResult (s : State) : s.noResult.clipY0 = s.clipY0 := rfl
@[simp] theorem State.clipX1_noResult (s : State) : s.noResult.clipX1 = s.clipX1 := rfl
@[simp] theorem State.clipY1_noResult (s : State) : s.noResult.clipY1 = s.clipY1 := rfl
@[simp] theorem State.pen_noResult (s : State) : s.noResult.pen = s.pen := rfl
@[simp] theorem State.cursorX_noResult (s : State) : s.noResult.cursorX = s.cursorX := rfl
@[simp] theorem State.cursorY_noResult (s : State) : s.noResult.cursorY = s.cursorY := rfl
@[simp] theorem State.cameraX_noResult (s : State) : s.noResult.cameraX = s.cameraX := rfl
@[simp] theorem State.cameraY_noResult (s : State) : s.noResult.cameraY = s.cameraY := rfl
@[simp] theorem State.fillp_noResult (s : State) : s.noResult.fillp = s.fillp := rfl
@[simp] theorem State.fillpTrans_noResult (s : State) : s.noResult.fillpTrans = s.fillpTrans := rfl
@[simp] theorem State.drawPal_noResult (s : State) (k : BitVec 4) : s.noResult.drawPal k = s.drawPal k := rfl
@[simp] theorem State.screenPal_noResult (s : State) (k : BitVec 4) : s.noResult.screenPal k = s.screenPal k := rfl
@[simp] theorem State.pget_noResult (s : State) (base : Nat) (x y : Int) :
    s.noResult.pget base x y = s.pget base x y := rfl

end Sys2Proof.Machine
end

section
/-! SUPPORT. Drawing inside the clip rectangle (46_raster_state.md R332, R337, R339; 47_raster_primitives.md R380;
48_raster_blit_text.md R410): a preorder on states that every operation of the pixel-write path lies in, and every
drawing command with its required operands. -/

namespace Sys2Proof.Machine

/-! ## The preorder -/

/-- `t` is `s` but for screen bytes and bytes at addresses of which `P` holds; its clip rectangle is that of `s`, and
every pixel outside it is as in `s`. -/
def DrawsInClip (P : Nat → Prop) (s t : State) : Prop :=
  WritesOnly (fun a => inScreen a ∨ P a) s t ∧
  (s.mem.wf = true → s.cfg.layout.ok = true →
    (∀ x y, t.inClip x y = s.inClip x y) ∧
    ∀ x y, s.inClip x y = false → t.pget screenBase x y = s.pget screenBase x y)

theorem DrawsInClip.refl (P : Nat → Prop) (s : State) : DrawsInClip P s s :=
  ⟨.refl _ s, fun _ _ => ⟨fun _ _ => rfl, fun _ _ _ => rfl⟩⟩

theorem DrawsInClip.trans {P : Nat → Prop} {s t u : State} (h : DrawsInClip P s t) (h' : DrawsInClip P t u) :
    DrawsInClip P s u := by
  refine ⟨h.1.trans h'.1, fun hw hl => ?_⟩
  obtain ⟨hclip, hpix⟩ := h.2 hw hl
  obtain ⟨hclip', hpix'⟩ := h'.2 (h.1.wf hw) (h.1.cfg ▸ hl)
  refine ⟨fun x y => (hclip' x y).trans (hclip x y), fun x y hout => ?_⟩
  rw [hpix' x y ((hclip x y).trans hout), hpix x y hout]

/-- The draw-state bytes a drawing command may write belong to five fields, none of them a field of the clip
rectangle. -/
theorem drawStateByte_owned {l : Layout} {i : Instr} {a : Nat} (h : drawStateByte l i a) :
    ∃ f ∈ [DrawField.pen, .lineX, .lineY, .cursorX, .cursorY], l.Owns f a := by
  have hbytes : a = l.pen ∨ (l.lineX ≤ a ∧ a < l.lineX + 2) ∨ (l.lineY ≤ a ∧ a < l.lineY + 2) ∨
      a = l.cursorX ∨ a = l.cursorY := by
    cases i <;> simp only [drawStateByte] at h <;> tauto
  rcases hbytes with rfl | hx | hy | rfl | rfl
  · exact ⟨.pen, by simp, l.owns_addr .pen⟩
  · exact ⟨.lineX, by simp, hx⟩
  · exact ⟨.lineY, by simp, hy⟩
  · exact ⟨.cursorX, by simp, l.owns_addr .cursorX⟩
  · exact ⟨.cursorY, by simp, l.owns_addr .cursorY⟩

/-- No draw-state byte a drawing command may write is a clip byte. -/
theorem not_drawStateByte_addr {l : Layout} (hl : l.ok = true) {i : Instr} {g : DrawField}
    (hg : g ∉ [DrawField.pen, .lineX, .lineY, .cursorX, .cursorY]) : ¬ drawStateByte l i (l.addr g) := by
  intro h
  obtain ⟨f, hf, howns⟩ := drawStateByte_owned h
  exact hg (Layout.owns_unique hl howns (l.owns_addr g) ▸ hf)

/-- Writing the draw-state bytes a command may write draws nothing. -/
theorem WritesOnly.drawsInClip {i : Instr} {s t : State} (h : WritesOnly (drawStateByte s.cfg.layout i) s t) :
    DrawsInClip (drawStateByte s.cfg.layout i) s t := by
  refine ⟨h.mono fun a ha => .inr ha, fun hw hl => ⟨?_, fun x y _ => ?_⟩⟩
  · exact h.inClip hw (not_drawStateByte_addr hl (g := .clipX0) (by simp))
      (not_drawStateByte_addr hl (g := .clipY0) (by simp)) (not_drawStateByte_addr hl (g := .clipX1) (by simp))
      (not_drawStateByte_addr hl (g := .clipY1) (by simp))
  · refine h.pget_screen hw (fun a ha hscreen => ?_) x y
    obtain ⟨f, -, howns⟩ := drawStateByte_owned ha
    exact not_inScreen_of_owns hl howns hscreen

/-! ## The pixel-write path -/

section
variable (P : Nat → Prop) (s : State)

/-- The one place where a pixel is written: an on-screen pixel inside the clip rectangle (R332). -/
theorem State.pixelPut_drawsInClip (x y : Int) (c : BitVec 4) : DrawsInClip P s (s.pixelPut x y c) := by
  have hscreen : WritesOnly inScreen s (s.pixelPut x y c) := s.pixelPut_screen x y c
  refine ⟨hscreen.mono fun a ha => .inl ha, fun hw hl => ⟨?_, fun x' y' hout => ?_⟩⟩
  · have hbelow (f : DrawField) : ¬ inScreen (s.cfg.layout.addr f) := not_inScreen_of_owns hl (s.cfg.layout.owns_addr f)
    exact hscreen.inClip hw (hbelow .clipX0) (hbelow .clipY0) (hbelow .clipX1) (hbelow .clipY1)
  · unfold State.pixelPut
    split
    · next hin =>
      obtain ⟨-, hclip⟩ := (Bool.and_eq_true _ _).mp hin
      rw [State.pget_pset s hw _ (by decide), if_neg]
      rintro ⟨-, rfl, rfl⟩
      exact Bool.false_ne_true (hout.symm.trans hclip)
    · rfl

theorem State.plot_drawsInClip (x y : Int) : DrawsInClip P s (s.plot x y) := by
  unfold State.plot State.pixelWrite
  split
  · split
    · exact .refl P s
    · exact s.pixelPut_drawsInClip P x y _
  · exact s.pixelPut_drawsInClip P x y _

theorem State.plotAll_drawsInClip (l : List (Int × Int)) : DrawsInClip P s (s.plotAll l) := by
  induction l generalizing s with
  | nil => exact .refl P s
  | cons q l ih => exact (s.plot_drawsInClip P q.1 q.2).trans (ih _)

theorem State.blitPixel_drawsInClip (X Y u v : Int) : DrawsInClip P s (s.blitPixel X Y u v) := by
  unfold State.blitPixel
  split
  · split
    · exact .refl P s
    · exact s.pixelPut_drawsInClip P X Y _
  · exact .refl P s

theorem State.blitAll_drawsInClip (l : List (Int × Int × Int × Int)) : DrawsInClip P s (s.blitAll l) := by
  induction l generalizing s with
  | nil => exact .refl P s
  | cons q l ih => exact (s.blitPixel_drawsInClip P _ _ _ _).trans (ih _)

theorem State.drawSprite_drawsInClip (n x y w h : Int) (fx fy : Bool) :
    DrawsInClip P s (s.drawSprite n x y w h fx fy) := by
  unfold State.drawSprite
  split
  · exact .refl P s
  · exact s.blitAll_drawsInClip P _

theorem State.drawScaled_drawsInClip (sx sy sw sh dx dy dw dh : Int) (fx fy : Bool) :
    DrawsInClip P s (s.drawScaled sx sy sw sh dx dy dw dh fx fy) := by
  unfold State.drawScaled
  split
  · exact .refl P s
  · exact s.blitAll_drawsInClip P _

theorem State.drawCell_drawsInClip (a b sx sy : Int) (layers : Operand) :
    DrawsInClip P s (s.drawCell a b sx sy layers) := by
  unfold State.drawCell
  dsimp only
  split
  · exact .refl P s
  · split
    · exact s.drawSprite_drawsInClip P _ _ _ _ _ _ _
    · exact .refl P s

theorem State.drawCells_drawsInClip (layers : Operand) (l : List (Int × Int × Int × Int)) :
    DrawsInClip P s (s.drawCells layers l) := by
  induction l generalizing s with
  | nil => exact .refl P s
  | cons q l ih => exact (s.drawCell_drawsInClip P _ _ _ _ _).trans (ih _)

end

/-! ## Commands -/

/-- The pen byte is among the draw-state bytes of a pen-based command with a colour. -/
def PenNamed (i : Instr) (c : Operand) : Prop := ∀ (l : Layout), c.isSome → drawStateByte l i l.pen

theorem State.colorStep_drawsInClip {i : Instr} {c : Operand} (s : State)
    (hi : PenNamed i c := by simp +contextual [PenNamed, drawStateByte]) :
    DrawsInClip (drawStateByte s.cfg.layout i) s (s.colorStep c) :=
  ((s.colorStep_writes c).mono (by rintro _ ⟨hc, rfl⟩; exact hi _ hc)).drawsInClip

/-- The colour step and the points of a pen-based command. -/
theorem drawsInClip_colorStep_plotAll {i : Instr} {c : Operand} (s : State) (l : List (Int × Int))
    (hi : PenNamed i c := by simp +contextual [PenNamed, drawStateByte]) :
    DrawsInClip (drawStateByte s.cfg.layout i) s ((s.colorStep c).plotAll l) :=
  (s.colorStep_drawsInClip hi).trans (State.plotAll_drawsInClip _ _ l)

/-- The outcome is a next state without a result, drawn inside the clip rectangle but for the draw-state bytes named
for the command. -/
def OutDrawsInClip (i : Instr) (s : State) (o : Out) : Prop :=
  ∃ t, o = .next t.noResult ∧ DrawsInClip (drawStateByte s.cfg.layout i) s t

theorem OutDrawsInClip.next {i : Instr} {s t : State} (h : DrawsInClip (drawStateByte s.cfg.layout i) s t) :
    OutDrawsInClip i s (.next t.noResult) := ⟨t, rfl, h⟩

/-- A further write of draw-state bytes named for the command. -/
theorem DrawsInClip.writes {i : Instr} {s t u : State} (h : DrawsInClip (drawStateByte s.cfg.layout i) s t)
    (hw : WritesOnly (drawStateByte s.cfg.layout i) t u) : DrawsInClip (drawStateByte s.cfg.layout i) s u := by
  have hlayout : t.cfg.layout = s.cfg.layout := congrArg Config.layout h.1.cfg
  rw [← hlayout] at hw
  exact h.trans (hlayout ▸ hw.drawsInClip)

theorem State.recordLineEnd_writes (s : State) (x y : Int) :
    WritesOnly (fun a => (s.cfg.layout.lineX ≤ a ∧ a < s.cfg.layout.lineX + 2) ∨
      (s.cfg.layout.lineY ≤ a ∧ a < s.cfg.layout.lineY + 2)) s (s.recordLineEnd x y) :=
  ((s.poke16_writes _ _).mono fun _ => .inl).trans ((State.poke16_writes _ _ _).mono fun _ => .inr)

theorem execSetPixel_drawsInClip (x y : Word) (c : Operand) (s : State) :
    OutDrawsInClip (.setPixel (some x) (some y) c) s (execSetPixel (some x) (some y) c s) :=
  .next (s.colorStep_drawsInClip.trans (State.plot_drawsInClip _ _ _ _))

theorem execLine_drawsInClip (x0 y0 : Word) (x1 y1 c : Operand) (s : State) :
    OutDrawsInClip (.line (some x0) (some y0) x1 y1 c) s (execLine (some x0) (some y0) x1 y1 c s) := by
  have hdrawn (l : List (Int × Int)) :=
    drawsInClip_colorStep_plotAll (i := .line (some x0) (some y0) x1 y1 c) (c := c) s l
  refine .next ((hdrawn _).writes ((State.recordLineEnd_writes _ _ _).mono fun a ha => ?_))
  rw [(hdrawn _).1.cfg] at ha
  exact .inr ha

theorem rectCmd_drawsInClip {i : Instr} {c : Operand}
    (points : Int → Int → Int → Int → List (Int × Int)) (x0 y0 x1 y1 : Word) (s : State)
    (hi : PenNamed i c := by simp +contextual [PenNamed, drawStateByte]) :
    OutDrawsInClip i s (.next (rectCmd points (some x0) (some y0) (some x1) (some y1) c s)) :=
  .next (drawsInClip_colorStep_plotAll s _ hi)

theorem circleCmd_drawsInClip {i : Instr} {c : Operand}
    (points : Int → Int → Int → List (Int × Int)) (x y : Word) (r : Operand) (s : State)
    (hi : PenNamed i c := by simp +contextual [PenNamed, drawStateByte]) :
    OutDrawsInClip i s (.next (circleCmd points (some x) (some y) r c s)) := by
  unfold circleCmd
  dsimp only
  split
  · exact .next (s.colorStep_drawsInClip hi)
  · exact .next (drawsInClip_colorStep_plotAll s _ hi)

theorem ellipseCmd_drawsInClip {i : Instr} {c : Operand}
    (points : Int → Int → Int → Int → List (Int × Int)) (x0 y0 x1 y1 : Word) (s : State)
    (hi : PenNamed i c := by simp +contextual [PenNamed, drawStateByte]) :
    OutDrawsInClip i s (.next (ellipseCmd points (some x0) (some y0) (some x1) (some y1) c s)) :=
  .next (drawsInClip_colorStep_plotAll s _ hi)

theorem execText_drawsInClip (str : Bytes) (x y c : Operand) (s : State) :
    OutDrawsInClip (.text str x y c) s (execText str x y c s) := by
  refine .next ((drawsInClip_colorStep_plotAll s _).writes
    ((State.pokePairs_writes _ _).mono fun a ha => .inr ?_))
  simpa using ha

/-! ## Supplied operands -/

theorem supplied_two {a b : Operand} (h : (a.isNone || b.isNone) = false) : ∃ x y, a = some x ∧ b = some y := by
  obtain ⟨ha, hb⟩ := Bool.or_eq_false_iff.mp h
  obtain ⟨x, rfl⟩ := Option.isSome_iff_exists.mp (Option.isNone_eq_false_iff.mp ha)
  obtain ⟨y, rfl⟩ := Option.isSome_iff_exists.mp (Option.isNone_eq_false_iff.mp hb)
  exact ⟨x, y, rfl, rfl⟩

theorem supplied_three {a b c : Operand} (h : (a.isNone || b.isNone || c.isNone) = false) :
    ∃ x y z, a = some x ∧ b = some y ∧ c = some z := by
  obtain ⟨hab, hc⟩ := Bool.or_eq_false_iff.mp h
  obtain ⟨x, y, rfl, rfl⟩ := supplied_two hab
  obtain ⟨z, rfl⟩ := Option.isSome_iff_exists.mp (Option.isNone_eq_false_iff.mp hc)
  exact ⟨x, y, z, rfl, rfl, rfl⟩

theorem supplied_four {a b c d : Operand} (h : (a.isNone || b.isNone || c.isNone || d.isNone) = false) :
    ∃ x y z u, a = some x ∧ b = some y ∧ c = some z ∧ d = some u := by
  rw [Bool.or_assoc, Bool.or_eq_false_iff] at h
  obtain ⟨x, y, rfl, rfl⟩ := supplied_two h.1
  obtain ⟨z, u, rfl, rfl⟩ := supplied_two h.2
  exact ⟨x, y, z, u, rfl, rfl, rfl, rfl⟩

theorem supplied_six {a b c d e f : Operand}
    (h : (a.isNone || b.isNone || c.isNone || d.isNone || e.isNone || f.isNone) = false) :
    ∃ x y z u v w, a = some x ∧ b = some y ∧ c = some z ∧ d = some u ∧ e = some v ∧ f = some w := by
  rw [Bool.or_assoc, Bool.or_eq_false_iff] at h
  obtain ⟨x, y, z, u, rfl, rfl, rfl, rfl⟩ := supplied_four h.1
  obtain ⟨v, w, rfl, rfl⟩ := supplied_two h.2
  exact ⟨x, y, z, u, v, w, rfl, rfl, rfl, rfl, rfl, rfl⟩

/-- Every drawing command with its required operands. -/
theorem exec_drawsInClip {i : Instr} (hdraws : i.draws = true) (h : i.lacksRequired = false) (s : State) :
    OutDrawsInClip i s (exec i s) := by
  cases i with
  | setPixel x y c =>
    obtain ⟨x, y, rfl, rfl⟩ := supplied_two h
    exact execSetPixel_drawsInClip x y c s
  | line x0 y0 x1 y1 c =>
    obtain ⟨x0, y0, rfl, rfl⟩ := supplied_two h
    exact execLine_drawsInClip x0 y0 x1 y1 c s
  | rect x0 y0 x1 y1 c =>
    obtain ⟨x0, y0, x1, y1, rfl, rfl, rfl, rfl⟩ := supplied_four h
    exact rectCmd_drawsInClip rectPoints x0 y0 x1 y1 s
  | rectFill x0 y0 x1 y1 c =>
    obtain ⟨x0, y0, x1, y1, rfl, rfl, rfl, rfl⟩ := supplied_four h
    exact rectCmd_drawsInClip rectFillPoints x0 y0 x1 y1 s
  | circle x y r c =>
    obtain ⟨x, y, rfl, rfl⟩ := supplied_two h
    exact circleCmd_drawsInClip circlePoints x y r s
  | circleFill x y r c =>
    obtain ⟨x, y, rfl, rfl⟩ := supplied_two h
    exact circleCmd_drawsInClip circleFillPoints x y r s
  | ellipse x0 y0 x1 y1 c =>
    obtain ⟨x0, y0, x1, y1, rfl, rfl, rfl, rfl⟩ := supplied_four h
    exact ellipseCmd_drawsInClip ellipsePoints x0 y0 x1 y1 s
  | ellipseFill x0 y0 x1 y1 c =>
    obtain ⟨x0, y0, x1, y1, rfl, rfl, rfl, rfl⟩ := supplied_four h
    exact ellipseCmd_drawsInClip ellipseFillPoints x0 y0 x1 y1 s
  | sprite n x y w ht fx fy =>
    obtain ⟨n, x, y, rfl, rfl, rfl⟩ := supplied_three h
    exact .next (s.drawSprite_drawsInClip _ _ _ _ _ _ _ _)
  | spriteScaled sx sy sw sh dx dy dw dh fx fy =>
    obtain ⟨sx, sy, sw, sh, dx, dy, rfl, rfl, rfl, rfl, rfl, rfl⟩ := supplied_six h
    exact .next (s.drawScaled_drawsInClip _ _ _ _ _ _ _ _ _ _ _)
  | tileMap cx0 cy0 sx sy cw ch layers =>
    obtain ⟨cx0, cy0, sx, sy, cw, ch, rfl, rfl, rfl, rfl, rfl, rfl⟩ := supplied_six h
    exact .next (s.drawCells_drawsInClip _ layers _)
  | text str x y c => exact execText_drawsInClip str x y c s
  | _ => exact absurd hdraws Bool.false_ne_true

/-! ## The obligation -/

/-- The model's clip test is the rectangle of R33. -/
theorem State.inClip_iff (s : State) (x y : Int) : s.inClip x y = true ↔
    (s.clipX0.toNat : Int) ≤ x ∧ x < s.clipX1.toNat ∧ (s.clipY0.toNat : Int) ≤ y ∧ y < s.clipY1.toNat := by
  simp only [State.inClip, Bool.and_eq_true, decide_eq_true_eq, and_assoc]

/-- Settles O25: every drawing command lies in the preorder. -/
theorem clipInvariant : Obligations.ClipInvariant := by
  intro i s hdraws hw hl hrequired
  obtain ⟨t, hexec, hwrites, hclip⟩ := exec_drawsInClip hdraws hrequired s
  obtain ⟨-, hpix⟩ := hclip hw hl
  refine ⟨t.noResult, hexec, hwrites.noResult, fun x y _ hout => ?_⟩
  rw [State.pget_noResult]
  exact hpix x y (Bool.eq_false_of_not_eq_true (mt (s.inClip_iff x y).mp hout))

/-- The reset state with a clip rectangle two pixels wide. -/
def narrowClip : State := State.reset.poke 0x5F22 2

/-- The hypotheses of `clipInvariant` hold of a filled rectangle that reaches across the clip rectangle's edge: the
pixel behind the edge stays black. -/
theorem exec_rectFill_narrowClip : ∃ t,
    exec (.rectFill (some 1) (some 0) (some 2) (some 0) (some 8)) narrowClip = .next t ∧ t.pget screenBase 2 0 = 0 := by
  obtain ⟨t, hexec, -, hpix⟩ := clipInvariant (.rectFill (some 1) (some 0) (some 2) (some 0) (some 8)) narrowClip rfl
    rfl rfl rfl
  exact ⟨t, hexec, (hpix 2 0 rfl (by decide)).trans rfl⟩

end Sys2Proof.Machine
end

section
/-! SUPPORT. The commands that set the draw state (46_raster_state.md R346 to R348, R351, R352): the clip rectangle,
the camera, the fill pattern, the pen and the text cursor. -/

namespace Sys2Proof.Machine

/-! ## One-byte fields -/

/-- Bytes stored in fields of the draw state, in order. -/
def State.storeFields (s : State) (fs : List (DrawField × Byte)) : State :=
  s.pokePairs (fs.map fun q => (s.cfg.layout.addr q.1, q.2))

theorem State.storeFields_writes (s : State) (fs : List (DrawField × Byte)) :
    WritesOnly (fun a => ∃ f ∈ fs.map (·.1), a = s.cfg.layout.addr f) s (s.storeFields fs) := by
  refine (s.pokePairs_writes _).mono fun a ha => ?_
  simp only [List.map_map, List.mem_map, Function.comp] at ha
  obtain ⟨q, hq, rfl⟩ := ha
  exact ⟨q.1, List.mem_map.mpr ⟨q, hq, rfl⟩, rfl⟩

/-- A field read after bytes stored in different fields. -/
theorem State.peek_storeFields {s : State} (hw : s.mem.wf = true) (hl : s.cfg.layout.ok = true)
    {fs : List (DrawField × Byte)} (hnodup : (fs.map (·.1)).Nodup) {f : DrawField} {v : Byte} (hmem : (f, v) ∈ fs) :
    (s.storeFields fs).peek ((s.storeFields fs).cfg.layout.addr f) = v := by
  rw [(s.storeFields_writes fs).cfg]
  refine State.peek_pokePairs_of_mem hw ?_ (List.mem_map.mpr ⟨(f, v), hmem, rfl⟩) (addr_lt_ramSize hl f)
  have hkeys := Layout.addr_nodup hl hnodup
  rwa [List.map_map] at hkeys ⊢

/-! ## Clip rectangle -/

/-- The four clip bytes stored. -/
def State.storeClip (s : State) (x0 y0 x1 y1 : Byte) : State :=
  s.storeFields [(.clipX0, x0), (.clipY0, y0), (.clipX1, x1), (.clipY1, y1)]

theorem exec_setClip_supplied (x y w h : Word) (s : State) :
    exec (.setClip (some x) (some y) (some w) (some h)) s =
      .next (s.storeClip (BitVec.ofInt 8 (clampInt (sval x) 0 128)) (BitVec.ofInt 8 (clampInt (sval y) 0 128))
        (BitVec.ofInt 8 (clampInt (sval x + sval w) 0 128))
        (BitVec.ofInt 8 (clampInt (sval y + sval h) 0 128))).noResult := rfl

theorem exec_setClip_missing {x y w h : Operand} (s : State) (hmiss : x = none ∨ y = none ∨ w = none ∨ h = none) :
    exec (.setClip x y w h) s = .next (s.storeClip 0 0 128 128).noResult := by
  show execSetClip x y w h s = _
  unfold execSetClip
  split
  · simp at hmiss
  · rfl

theorem State.storeClip_writes (s : State) (x0 y0 x1 y1 : Byte) :
    WritesOnly (fun a => a = s.cfg.layout.clipX0 ∨ a = s.cfg.layout.clipY0 ∨ a = s.cfg.layout.clipX1 ∨
      a = s.cfg.layout.clipY1) s (s.storeClip x0 y0 x1 y1) :=
  (s.storeFields_writes _).mono fun a ha => by simpa [Layout.addr] using ha

section
variable {s : State} (hw : s.mem.wf = true) (hl : s.cfg.layout.ok = true) (x0 y0 x1 y1 : Byte)
include hw hl

/-- The clip rectangle read back. -/
theorem State.clip_storeClip_noResult :
    (s.storeClip x0 y0 x1 y1).noResult.clipX0 = x0 ∧ (s.storeClip x0 y0 x1 y1).noResult.clipY0 = y0 ∧
    (s.storeClip x0 y0 x1 y1).noResult.clipX1 = x1 ∧ (s.storeClip x0 y0 x1 y1).noResult.clipY1 = y1 := by
  have hread {f : DrawField} {v : Byte} := s.peek_storeFields hw hl (f := f) (v := v)
    (fs := [(.clipX0, x0), (.clipY0, y0), (.clipX1, x1), (.clipY1, y1)]) (by simp)
  rw [State.clipX0_noResult, State.clipY0_noResult, State.clipX1_noResult, State.clipY1_noResult]
  exact ⟨hread (f := .clipX0) (by simp), hread (f := .clipY0) (by simp), hread (f := .clipX1) (by simp),
    hread (f := .clipY1) (by simp)⟩

end

/-- A clamped coordinate fits into a clip byte. -/
theorem toNat_ofInt_clampInt (v : Int) : ((BitVec.ofInt 8 (clampInt v 0 128)).toNat : Int) = max 0 (min 128 v) := by
  rw [BitVec.toNat_ofInt, clampInt]
  omega

/-- A byte that holds a clamped coordinate. -/
theorem toNat_of_eq_ofInt_clampInt {b : Byte} {v : Int} (h : b = BitVec.ofInt 8 (clampInt v 0 128)) :
    (b.toNat : Int) = max 0 (min 128 v) := h ▸ toNat_ofInt_clampInt v

/-- Settles O18: either form of `set_clip` stores the four clip bytes. -/
theorem setClipStores : Obligations.SetClipStores := by
  intro s x y w h hw hl
  by_cases hmiss : x = none ∨ y = none ∨ w = none ∨ h = none
  · refine ⟨_, exec_setClip_missing s hmiss, (s.storeClip_writes _ _ _ _).noResult, ?_, fun _ => ?_⟩
    · rintro x' y' w' h' rfl rfl rfl rfl
      simp at hmiss
    · exact s.clip_storeClip_noResult hw hl 0 0 128 128
  · simp only [not_or, Option.ne_none_iff_exists'] at hmiss
    obtain ⟨⟨x, rfl⟩, ⟨y, rfl⟩, ⟨w, rfl⟩, ⟨h, rfl⟩⟩ := hmiss
    refine ⟨_, exec_setClip_supplied x y w h s, (s.storeClip_writes _ _ _ _).noResult, ?_, by simp⟩
    rintro _ _ _ _ ⟨⟩ ⟨⟩ ⟨⟩ ⟨⟩
    obtain ⟨hx0, hy0, hx1, hy1⟩ := s.clip_storeClip_noResult hw hl (BitVec.ofInt 8 (clampInt (sval x) 0 128))
      (BitVec.ofInt 8 (clampInt (sval y) 0 128)) (BitVec.ofInt 8 (clampInt (sval x + sval w) 0 128))
      (BitVec.ofInt 8 (clampInt (sval y + sval h) 0 128))
    exact ⟨toNat_of_eq_ofInt_clampInt hx0, toNat_of_eq_ofInt_clampInt hy0, toNat_of_eq_ofInt_clampInt hx1,
      toNat_of_eq_ofInt_clampInt hy1⟩

/-- The hypotheses of `setClipStores` hold of a rectangle that reaches over two edges of the screen. -/
theorem exec_setClip_reset : ∃ t,
    exec (.setClip (some 0xFFFFFFF6) (some 100) (some 30) (some 100)) State.reset = .next t ∧
    (t.clipX0.toNat : Int) = 0 ∧ (t.clipY0.toNat : Int) = 100 ∧ (t.clipX1.toNat : Int) = 20 ∧
    (t.clipY1.toNat : Int) = 128 := by
  obtain ⟨t, hexec, -, hclip, -⟩ :=
    setClipStores State.reset (some 0xFFFFFFF6) (some 100) (some 30) (some 100) rfl rfl
  exact ⟨t, hexec, hclip _ _ _ _ rfl rfl rfl rfl⟩

/-! ## Camera and fill pattern -/

/-- A 16-bit field read after another field is written. -/
theorem WritesOnly.peek16_field {l : Layout} {s t : State} {f g : DrawField} (h : WritesOnly (l.Owns g) s t)
    (hw : s.mem.wf = true) (hl : l.ok = true) (hf : f.width = 2) (hne : f ≠ g) :
    t.peek16 (l.addr f) = s.peek16 (l.addr f) := by
  have hother {a : Nat} (ha : l.Owns f a) : ¬ l.Owns g a := fun hg => hne (Layout.owns_unique hl ha hg)
  exact h.peek16 hw (hother (l.owns_addr f)) (hother ⟨Nat.le_succ _, by omega⟩)

/-- A 16-bit field read back. -/
theorem State.peek16_poke16_field {s : State} (hw : s.mem.wf = true) {l : Layout} (hl : l.ok = true) {f : DrawField}
    (hf : f.width = 2) (v : Half) : (s.poke16 (l.addr f) v).peek16 (l.addr f) = v := by
  have hbounds := Layout.addr_bounds hl f
  exact s.peek16_poke16 hw _ (by unfold ramSize; omega) v

/-- The camera stored. -/
def State.storeCamera (s : State) (x y : Half) : State :=
  (s.poke16 s.cfg.layout.cameraX x).poke16 s.cfg.layout.cameraY y

/-- The fill pattern and its transparency flag stored. -/
def State.storeFill (s : State) (pattern : Half) (trans : Byte) : State :=
  (s.poke16 s.cfg.layout.fillp pattern).poke s.cfg.layout.fillpTrans trans

theorem exec_setCamera (x y : Operand) (s : State) :
    exec (.setCamera x y) s = .next (s.storeCamera (optLow16 x) (optLow16 y)).noResult := rfl

theorem exec_setFillPattern (pattern trans : Operand) (s : State) : exec (.setFillPattern pattern trans) s =
    .next (s.storeFill (optLow16 pattern) (if optFlag trans then 1 else 0)).noResult := rfl

theorem State.storeCamera_writes (s : State) (x y : Half) :
    WritesOnly (fun a => (s.cfg.layout.cameraX ≤ a ∧ a < s.cfg.layout.cameraX + 2) ∨
      (s.cfg.layout.cameraY ≤ a ∧ a < s.cfg.layout.cameraY + 2)) s (s.storeCamera x y) :=
  ((s.poke16_writes _ _).mono fun _ => .inl).trans ((State.poke16_writes _ _ _).mono fun _ => .inr)

theorem State.storeFill_writes (s : State) (pattern : Half) (trans : Byte) :
    WritesOnly (fun a => (s.cfg.layout.fillp ≤ a ∧ a < s.cfg.layout.fillp + 2) ∨ a = s.cfg.layout.fillpTrans) s
      (s.storeFill pattern trans) :=
  ((s.poke16_writes _ _).mono fun _ => .inl).trans ((State.poke_writes _ _ _).mono fun _ => .inr)

section
variable {s : State} (hw : s.mem.wf = true) (hl : s.cfg.layout.ok = true)
include hw hl

theorem State.cameraX_storeCamera (x y : Half) : (s.storeCamera x y).cameraX = x.toInt := by
  have hsecond : WritesOnly (s.cfg.layout.Owns .cameraY) (s.poke16 s.cfg.layout.cameraX x) (s.storeCamera x y) :=
    State.poke16_writes _ _ y
  have hkept := hsecond.peek16_field (f := .cameraX) ((s.poke16_writes _ x).wf hw) hl rfl nofun
  rw [State.cameraX, (s.storeCamera_writes x y).cfg]
  exact congrArg BitVec.toInt (hkept.trans (s.peek16_poke16_field hw hl (f := .cameraX) rfl x))

theorem State.cameraY_storeCamera (x y : Half) : (s.storeCamera x y).cameraY = y.toInt := by
  rw [State.cameraY, (s.storeCamera_writes x y).cfg]
  exact congrArg BitVec.toInt (State.peek16_poke16_field ((s.poke16_writes _ x).wf hw) hl (f := .cameraY) rfl y)

theorem State.fillp_storeFill (pattern : Half) (trans : Byte) : (s.storeFill pattern trans).fillp = pattern := by
  have hsecond : WritesOnly (s.cfg.layout.Owns .fillpTrans) (s.poke16 s.cfg.layout.fillp pattern)
      (s.storeFill pattern trans) :=
    (State.poke_writes _ _ trans).mono (by rintro _ rfl; exact s.cfg.layout.owns_addr .fillpTrans)
  have hkept := hsecond.peek16_field (f := .fillp) ((s.poke16_writes _ pattern).wf hw) hl rfl nofun
  rw [State.fillp, (s.storeFill_writes pattern trans).cfg]
  exact hkept.trans (s.peek16_poke16_field hw hl (f := .fillp) rfl pattern)

theorem State.fillpTrans_storeFill (pattern : Half) (trans : Byte) :
    (s.storeFill pattern trans).fillpTrans = trans := by
  rw [State.fillpTrans, (s.storeFill_writes pattern trans).cfg]
  exact State.peek_poke_self ((s.poke16_writes _ pattern).wf hw) (addr_lt_ramSize hl .fillpTrans) trans

end

/-- Settles O19: each command stores its two fields, an unsupplied operand as 0. -/
theorem setCameraFillStore : Obligations.SetCameraFillStore := by
  intro s x y hw hl
  refine ⟨⟨_, exec_setCamera x y s, (s.storeCamera_writes _ _).noResult, ?_, ?_, ?_, ?_⟩,
    ⟨_, exec_setFillPattern x y s, (s.storeFill_writes _ _).noResult, ?_, ?_, ?_, ?_⟩⟩
  · rintro w rfl
    rw [State.cameraX_noResult, s.cameraX_storeCamera hw hl]
    rfl
  · rintro rfl
    rw [State.cameraX_noResult, s.cameraX_storeCamera hw hl]
    rfl
  · rintro w rfl
    rw [State.cameraY_noResult, s.cameraY_storeCamera hw hl]
    rfl
  · rintro rfl
    rw [State.cameraY_noResult, s.cameraY_storeCamera hw hl]
    rfl
  · rintro w rfl
    rw [State.fillp_noResult, s.fillp_storeFill hw hl]
    rfl
  · rintro rfl
    rw [State.fillp_noResult, s.fillp_storeFill hw hl]
    rfl
  · rintro ⟨w, rfl, hne⟩
    rw [State.fillpTrans_noResult, s.fillpTrans_storeFill hw hl]
    exact if_pos (bne_iff_ne.mpr hne)
  · rintro hzero
    rw [State.fillpTrans_noResult, s.fillpTrans_storeFill hw hl]
    rcases hzero with rfl | rfl
    · rfl
    · rfl

/-- The hypotheses of `setCameraFillStore` hold of the reset state; the camera takes the low half of its operand,
signed. -/
theorem exec_setCamera_reset : ∃ t, exec (.setCamera (some 0x1FFFE) none) State.reset = .next t ∧
    t.cameraX = -2 ∧ t.cameraY = 0 := by
  obtain ⟨t, hexec, -, hx, -, -, hy⟩ :=
    (setCameraFillStore State.reset (some 0x1FFFE) none rfl rfl).1
  exact ⟨t, hexec, hx _ rfl, hy rfl⟩

/-! ## Pen and text cursor -/

/-- What `set_cursor` stores: the cursor, and a supplied colour as the pen. -/
def cursorBytes (x y c : Operand) : List (DrawField × Byte) :=
  (.cursorX, optLow8 x) :: (.cursorY, optLow8 y) :: c.toList.map fun w => (.pen, low8 w)

theorem exec_setColor (c : Operand) (s : State) : exec (.setColor c) s =
    .next (s.storeFields [(.pen, (c.map low8).getD s.cfg.defaultPen)]).noResult := by
  cases c with
  | none => rfl
  | some w => rfl

theorem exec_setCursor (x y c : Operand) (s : State) : exec (.setCursor x y c) s =
    .next (s.storeFields (cursorBytes x y c)).noResult := by
  cases c with
  | none => rfl
  | some w =>
    have hcfg : ((s.poke s.cfg.layout.cursorX (optLow8 x)).poke s.cfg.layout.cursorY (optLow8 y)).cfg = s.cfg :=
      (State.poke_writes _ _ _).cfg.trans (s.poke_writes _ _).cfg
    show Host.Outcome.next (State.noResult (State.poke _ _ _)) = _
    rw [hcfg]
    rfl

theorem cursorBytes_nodup (x y c : Operand) : ((cursorBytes x y c).map (·.1)).Nodup := by
  cases c <;> simp [cursorBytes]

/-- Settles O20: the pen of `set_color`; the cursor and a supplied pen of `set_cursor`. -/
theorem setColorCursorStore : Obligations.SetColorCursorStore := by
  intro s x y c hw hl
  have hcursor {f : DrawField} {v : Byte} := s.peek_storeFields hw hl (cursorBytes_nodup x y c) (f := f) (v := v)
  refine ⟨⟨_, exec_setColor c s, ((s.storeFields_writes _).mono ?_).noResult, ?_, ?_⟩,
    ⟨_, exec_setCursor x y c s, ((s.storeFields_writes _).mono ?_).noResult, ?_, ?_, ?_, ?_, ?_⟩⟩
  · intro a ha
    simpa [Layout.addr] using ha
  · rintro w rfl
    rw [State.pen_noResult]
    exact s.peek_storeFields hw hl (f := .pen) (by simp) (by simp [low8])
  · rintro rfl
    rw [State.pen_noResult]
    exact s.peek_storeFields hw hl (f := .pen) (by simp) (by simp)
  · intro a ha
    cases c <;> simpa [cursorBytes, Layout.addr] using ha
  · rintro w rfl
    rw [State.cursorX_noResult]
    exact hcursor (f := .cursorX) (by simp [cursorBytes, optLow8, low8])
  · rintro rfl
    rw [State.cursorX_noResult]
    exact hcursor (f := .cursorX) (by simp [cursorBytes, optLow8])
  · rintro w rfl
    rw [State.cursorY_noResult]
    exact hcursor (f := .cursorY) (by simp [cursorBytes, optLow8, low8])
  · rintro rfl
    rw [State.cursorY_noResult]
    exact hcursor (f := .cursorY) (by simp [cursorBytes, optLow8])
  · rintro w rfl
    rw [State.pen_noResult]
    exact hcursor (f := .pen) (by simp [cursorBytes, low8])

/-- The hypotheses of `setColorCursorStore` hold of the reset state; the supplied coordinate keeps its low byte. -/
theorem exec_setCursor_reset : ∃ t, exec (.setCursor (some 0x1FF) none (some 0x8C)) State.reset = .next t ∧
    t.cursorX = 0xFF ∧ t.cursorY = 0 ∧ t.pen = 0x8C := by
  obtain ⟨t, hexec, -, hx, -, -, hy, hpen⟩ :=
    (setColorCursorStore State.reset (some 0x1FF) none (some 0x8C) rfl rfl).2
  exact ⟨t, hexec, hx _ rfl, hy rfl, hpen _ rfl⟩

end Sys2Proof.Machine
end

section
/-! SUPPORT. The two palettes (46_raster_state.md R349, R350; 70_reset_and_hazards.md R514): an entry read after an
entry of either palette is written, the palettes as reset leaves them, and the transparency bits. -/

namespace Sys2Proof.Machine

/-! ## Entries -/

theorem Layout.owns_drawPal (l : Layout) (k : BitVec 4) : l.Owns .drawPal (l.drawPal + k.toNat) :=
  ⟨Nat.le_add_right _ _, Nat.add_lt_add_left k.isLt _⟩

theorem Layout.owns_screenPal (l : Layout) (k : BitVec 4) : l.Owns .screenPal (l.screenPal + k.toNat) :=
  ⟨Nat.le_add_right _ _, Nat.add_lt_add_left k.isLt _⟩

/-- Writes outside the draw palette leave its entries. -/
theorem WritesOnly.drawPal {P : Nat → Prop} {s t : State} (h : WritesOnly P s t) (hw : s.mem.wf = true)
    (hP : ∀ a, s.cfg.layout.Owns .drawPal a → ¬ P a) (k : BitVec 4) : t.drawPal k = s.drawPal k := by
  rw [State.drawPal, h.cfg, h.peek hw (hP _ (Layout.owns_drawPal _ k)), State.drawPal]

/-- Writes outside the screen palette leave its entries. -/
theorem WritesOnly.screenPal {P : Nat → Prop} {s t : State} (h : WritesOnly P s t) (hw : s.mem.wf = true)
    (hP : ∀ a, s.cfg.layout.Owns .screenPal a → ¬ P a) (k : BitVec 4) : t.screenPal k = s.screenPal k := by
  rw [State.screenPal, h.cfg, h.peek hw (hP _ (Layout.owns_screenPal _ k)), State.screenPal]

/-- One draw-palette entry stored. -/
def State.storeDrawPal (s : State) (c : BitVec 4) (b : Byte) : State := s.poke (s.cfg.layout.drawPal + c.toNat) b

/-- One screen-palette entry stored. -/
def State.storeScreenPal (s : State) (c : BitVec 4) (b : Byte) : State := s.poke (s.cfg.layout.screenPal + c.toNat) b

theorem State.storeDrawPal_writes (s : State) (c : BitVec 4) (b : Byte) :
    WritesOnly (s.cfg.layout.Owns .drawPal) s (s.storeDrawPal c b) :=
  (s.poke_writes _ b).mono (by rintro _ rfl; exact Layout.owns_drawPal _ c)

theorem State.storeScreenPal_writes (s : State) (c : BitVec 4) (b : Byte) :
    WritesOnly (s.cfg.layout.Owns .screenPal) s (s.storeScreenPal c b) :=
  (s.poke_writes _ b).mono (by rintro _ rfl; exact Layout.owns_screenPal _ c)

section
variable {s : State} (hw : s.mem.wf = true) (hl : s.cfg.layout.ok = true) (c k : BitVec 4) (b : Byte)
include hw hl

theorem State.drawPal_storeDrawPal : (s.storeDrawPal c b).drawPal k = if k = c then b else s.drawPal k := by
  rw [State.drawPal, (s.storeDrawPal_writes c b).cfg]
  have hin : s.cfg.layout.drawPal + c.toNat < ramSize :=
    lt_trans ((Layout.owns_drawPal _ c).lt hl) (by decide)
  split
  · next h => exact h ▸ State.peek_poke_self hw hin b
  · next h => exact State.peek_poke_of_ne hw (by have := mt BitVec.eq_of_toNat_eq h; omega) b

/-- An entry read after it is changed by a function of what it held. -/
theorem State.drawPal_updateDrawPal (f : Byte → Byte) :
    (s.storeDrawPal c (f (s.drawPal c))).drawPal k = if k = c then f (s.drawPal k) else s.drawPal k := by
  rw [State.drawPal_storeDrawPal hw hl]
  split
  · next h => rw [h]
  · rfl

theorem State.screenPal_storeScreenPal :
    (s.storeScreenPal c b).screenPal k = if k = c then b else s.screenPal k := by
  rw [State.screenPal, (s.storeScreenPal_writes c b).cfg]
  have hin : s.cfg.layout.screenPal + c.toNat < ramSize :=
    lt_trans ((Layout.owns_screenPal _ c).lt hl) (by decide)
  split
  · next h => exact h ▸ State.peek_poke_self hw hin b
  · next h => exact State.peek_poke_of_ne hw (by have := mt BitVec.eq_of_toNat_eq h; omega) b

theorem State.screenPal_storeDrawPal : (s.storeDrawPal c b).screenPal k = s.screenPal k :=
  (s.storeDrawPal_writes c b).screenPal hw (fun _ hs hd => nomatch Layout.owns_unique hl hs hd) k

theorem State.drawPal_storeScreenPal : (s.storeScreenPal c b).drawPal k = s.drawPal k :=
  (s.storeScreenPal_writes c b).drawPal hw (fun _ hd hs => nomatch Layout.owns_unique hl hd hs) k

end

/-! ## The palettes after reset -/

/-- Both palettes restored. -/
def State.restorePalettes (s : State) : State := s.pokePairs (paletteDefaults s.cfg.layout)

theorem paletteDefaults_keys (l : Layout) :
    (paletteDefaults l).map (·.1) = List.range' l.drawPal 16 ++ List.range' l.screenPal 16 := by
  simp [paletteDefaults, List.range', List.range, List.range.loop]

theorem mem_paletteDefaults_keys {l : Layout} {a : Nat} :
    a ∈ (paletteDefaults l).map (·.1) ↔ l.Owns .drawPal a ∨ l.Owns .screenPal a := by
  rw [paletteDefaults_keys, List.mem_append, List.mem_range'_1, List.mem_range'_1]
  rfl

theorem paletteDefaults_nodup {l : Layout} (hl : l.ok = true) : ((paletteDefaults l).map (·.1)).Nodup := by
  rw [paletteDefaults_keys, List.nodup_append']
  refine ⟨List.nodup_range', List.nodup_range', fun a hd hs => ?_⟩
  rw [List.mem_range'_1] at hd hs
  exact nomatch Layout.owns_unique (f := .drawPal) (g := .screenPal) hl hd hs

theorem drawPal_mem_paletteDefaults (l : Layout) (k : BitVec 4) :
    (l.drawPal + k.toNat, if k = 0 then 0x10 else k.setWidth 8) ∈ paletteDefaults l := by
  refine List.mem_append_left _ ?_
  split
  · next h =>
    subst h
    exact List.mem_cons_self
  · next h =>
    have hpos : k.toNat ≠ 0 := mt (fun h0 => BitVec.eq_of_toNat_eq h0) h
    refine List.mem_cons_of_mem _ (List.mem_map.mpr ⟨k.toNat, List.mem_range'_1.mpr (by omega), ?_⟩)
    rw [BitVec.ofNat_toNat]

theorem screenPal_mem_paletteDefaults (l : Layout) (k : BitVec 4) :
    (l.screenPal + k.toNat, k.setWidth 8) ∈ paletteDefaults l := by
  refine List.mem_append_right _ (List.mem_map.mpr ⟨k.toNat, List.mem_range.mpr k.isLt, ?_⟩)
  rw [BitVec.ofNat_toNat]

theorem State.restorePalettes_writes (s : State) :
    WritesOnly (fun a => s.cfg.layout.Owns .drawPal a ∨ s.cfg.layout.Owns .screenPal a) s s.restorePalettes :=
  (s.pokePairs_writes _).mono fun _ => mem_paletteDefaults_keys.mp

theorem State.drawPal_restorePalettes {s : State} (hw : s.mem.wf = true) (hl : s.cfg.layout.ok = true) (k : BitVec 4) :
    s.restorePalettes.drawPal k = if k = 0 then 0x10 else k.setWidth 8 := by
  rw [State.drawPal, s.restorePalettes_writes.cfg]
  exact State.peek_pokePairs_of_mem hw (paletteDefaults_nodup hl) (drawPal_mem_paletteDefaults _ k)
    (lt_trans ((Layout.owns_drawPal _ k).lt hl) (by decide))

theorem State.screenPal_restorePalettes {s : State} (hw : s.mem.wf = true) (hl : s.cfg.layout.ok = true)
    (k : BitVec 4) : s.restorePalettes.screenPal k = k.setWidth 8 := by
  rw [State.screenPal, s.restorePalettes_writes.cfg]
  exact State.peek_pokePairs_of_mem hw (paletteDefaults_nodup hl) (screenPal_mem_paletteDefaults _ k)
    (lt_trans ((Layout.owns_screenPal _ k).lt hl) (by decide))

/-! ## `set_palette` -/

/-- `set_palette` with both colours is decided by its page. -/
theorem exec_setPalette_supplied (a b : Word) (p : Operand) (s : State) :
    exec (.setPalette (some a) (some b) p) s =
      if optInt p 0 = 0 then
        .next (s.storeDrawPal (low4 a) (setPaletteColor (s.drawPal (low4 a)) (low4 b))).noResult
      else if optInt p 0 = 1 then .next (s.storeScreenPal (low4 a) ((low4 b).setWidth 8)).noResult
      else .next s.noResult := rfl

/-- The value of a supplied operand determines the operand. -/
theorem optInt_eq_toInt_iff {o : Operand} {d : Int} (w : Word) :
    optInt o d = w.toInt ↔ (o = none ∧ d = w.toInt) ∨ o = some w := by
  cases o with
  | none => simp [optInt]
  | some v => simp [optInt, sval, BitVec.toInt_inj]

theorem optInt_page_eq_zero_iff (p : Operand) : optInt p 0 = 0 ↔ p = none ∨ p = some 0 := by
  simpa using optInt_eq_toInt_iff (o := p) (d := 0) 0

theorem optInt_page_eq_one_iff (p : Operand) : optInt p 0 = 1 ↔ p = some 1 := by
  simpa using optInt_eq_toInt_iff (o := p) (d := 0) 1

theorem exec_setPalette_draw (a b : Word) {p : Operand} (hp : p = none ∨ p = some 0) (s : State) :
    exec (.setPalette (some a) (some b) p) s =
      .next (s.storeDrawPal (low4 a) (setPaletteColor (s.drawPal (low4 a)) (low4 b))).noResult := by
  rw [exec_setPalette_supplied, if_pos ((optInt_page_eq_zero_iff p).mpr hp)]

theorem exec_setPalette_screen (a b : Word) (s : State) : exec (.setPalette (some a) (some b) (some 1)) s =
    .next (s.storeScreenPal (low4 a) ((low4 b).setWidth 8)).noResult := by
  have h1 : optInt (some 1) 0 = 1 := (optInt_page_eq_one_iff _).mpr rfl
  rw [exec_setPalette_supplied, h1, if_neg one_ne_zero, if_pos rfl]

theorem exec_setPalette_page (a b : Word) {q : Word} (h0 : q ≠ 0) (h1 : q ≠ 1) (s : State) :
    exec (.setPalette (some a) (some b) (some q)) s = .next s.noResult := by
  have hne0 : optInt (some q) 0 ≠ 0 := by simpa [optInt_page_eq_zero_iff] using h0
  have hne1 : optInt (some q) 0 ≠ 1 := by simpa [optInt_page_eq_one_iff] using h1
  rw [exec_setPalette_supplied, if_neg hne0, if_neg hne1]

theorem exec_setPalette_none (p : Operand) (s : State) :
    exec (.setPalette none none p) s = .next s.restorePalettes.noResult := rfl

theorem exec_setPalette_single {c0 c1 : Operand} (h : c0.isSome ≠ c1.isSome) (p : Operand) (s : State) :
    exec (.setPalette c0 c1 p) s = .next s.noResult := by
  cases c0 with
  | none =>
    cases c1 with
    | none => exact absurd rfl h
    | some b => rfl
  | some a =>
    cases c1 with
    | none => rfl
    | some b => exact absurd rfl h

/-- The forms of `set_palette`: one colour alone, none, or both with a page. -/
theorem setPalette_forms (c0 c1 p : Operand) : c0.isSome ≠ c1.isSome ∨ (c0 = none ∧ c1 = none) ∨
    ∃ a b, c0 = some a ∧ c1 = some b ∧
      ((p = none ∨ p = some 0) ∨ p = some 1 ∨ ∃ q, p = some q ∧ q ≠ 0 ∧ q ≠ 1) := by
  cases c0 with
  | none =>
    cases c1 with
    | none => exact .inr (.inl ⟨rfl, rfl⟩)
    | some b => exact .inl nofun
  | some a =>
    cases c1 with
    | none => exact .inl nofun
    | some b =>
      refine .inr (.inr ⟨a, b, rfl, rfl, ?_⟩)
      cases p with
      | none => exact .inl (.inl rfl)
      | some q =>
        by_cases h0 : q = 0
        · exact .inl (.inr (congrArg some h0))
        · by_cases h1 : q = 1
          · exact .inr (.inl (congrArg some h1))
          · exact .inr (.inr ⟨q, rfl, h0, h1⟩)

/-- Settles O21: each form of `set_palette`. -/
theorem setPaletteStores : Obligations.SetPaletteStores := by
  intro s c0 c1 p hw hl
  rcases setPalette_forms c0 c1 p with
    hsingle | ⟨rfl, rfl⟩ | ⟨a, b, rfl, rfl, hpage | rfl | ⟨q, rfl, hq0, hq1⟩⟩
  · refine ⟨_, exec_setPalette_single hsingle p s, .refl _ _, ?_, ?_, ?_, ?_, fun _ => rfl⟩
    · exact fun _ _ h0 h1 => absurd (h0 ▸ h1 ▸ rfl) hsingle
    · exact fun _ _ h0 h1 => absurd (h0 ▸ h1 ▸ rfl) hsingle
    · exact fun _ _ _ h0 h1 => absurd (h0 ▸ h1 ▸ rfl) hsingle
    · exact fun h0 h1 => absurd (h0 ▸ h1 ▸ rfl) hsingle
  · refine ⟨_, exec_setPalette_none p s, s.restorePalettes_writes.noResult, nofun, nofun, nofun,
      fun _ _ k => ?_, nofun⟩
    rw [State.drawPal_noResult, State.screenPal_noResult]
    exact ⟨s.drawPal_restorePalettes hw hl k, s.screenPal_restorePalettes hw hl k⟩
  · refine ⟨_, exec_setPalette_draw a b hpage s, ((s.storeDrawPal_writes _ _).mono fun _ => .inl).noResult,
      ?_, ?_, ?_, nofun, fun h => absurd rfl h⟩
    · rintro _ _ ⟨⟩ ⟨⟩ - k
      rw [State.drawPal_noResult, State.screenPal_noResult]
      exact ⟨s.drawPal_updateDrawPal hw hl (low4 a) k fun e => setPaletteColor e (low4 b),
        s.screenPal_storeDrawPal hw hl _ k _⟩
    · rintro _ _ - - rfl
      simp at hpage
    · rintro _ _ q - - rfl hq0 -
      exact absurd (hpage.resolve_left nofun) (mt Option.some.inj hq0)
  · refine ⟨_, exec_setPalette_screen a b s, ((s.storeScreenPal_writes _ _).mono fun _ => .inr).noResult,
      fun _ _ _ _ h => absurd h (by simp), ?_, ?_, nofun, fun h => absurd rfl h⟩
    · rintro _ _ ⟨⟩ ⟨⟩ - k
      rw [State.drawPal_noResult, State.screenPal_noResult]
      exact ⟨s.screenPal_storeScreenPal hw hl (low4 a) k _, s.drawPal_storeScreenPal hw hl _ k _⟩
    · exact fun _ _ _ _ _ hq _ hq1 => absurd (Option.some.inj hq).symm hq1
  · exact ⟨_, exec_setPalette_page a b hq0 hq1 s, .refl _ _,
      fun _ _ _ _ h => absurd (h.resolve_left nofun) (mt Option.some.inj hq0),
      fun _ _ _ _ h => absurd (Option.some.inj h) hq1, fun _ _ _ _ _ _ _ _ => rfl, nofun, fun h => absurd rfl h⟩

/-- The hypotheses of `setPaletteStores` hold of the reset state; colour 0 stays transparent as it becomes colour 5. -/
theorem exec_setPalette_reset : ∃ t, exec (.setPalette (some 0) (some 5) none) State.reset = .next t ∧
    t.drawPal 0 = 0x15 ∧ t.drawPal 1 = 1 ∧ t.screenPal 0 = 0 := by
  obtain ⟨t, hexec, -, hdraw, -⟩ :=
    setPaletteStores State.reset (some 0) (some 5) none rfl rfl
  obtain ⟨h0, hscreen⟩ := hdraw 0 5 rfl rfl (.inl rfl) 0
  obtain ⟨h1, -⟩ := hdraw 0 5 rfl rfl (.inl rfl) 1
  exact ⟨t, hexec, h0.trans rfl, h1.trans rfl, hscreen.trans rfl⟩

/-! ## `set_transparent` -/

theorem State.markTransparent_eq (s : State) (c : BitVec 4) (t : Bool) :
    s.markTransparent c t = s.storeDrawPal c (setTransparentBit (s.drawPal c) t) := rfl

theorem State.markAll_writes (s : State) (l : List (BitVec 4 × Bool)) :
    WritesOnly (s.cfg.layout.Owns .drawPal) s (s.markAll l) := by
  induction l generalizing s with
  | nil => exact .refl _ s
  | cons q l ih =>
    have hfirst : WritesOnly (s.cfg.layout.Owns .drawPal) s (s.markTransparent q.1 q.2) := s.storeDrawPal_writes _ _
    exact hfirst.trans (hfirst.cfg ▸ ih (s.markTransparent q.1 q.2))

/-- An entry after the marks of a list that names each colour once. -/
theorem State.drawPal_markAll {s : State} (hw : s.mem.wf = true) (hl : s.cfg.layout.ok = true)
    {l : List (BitVec 4 × Bool)} (hnodup : (l.map (·.1)).Nodup) (k : BitVec 4) :
    (k ∉ l.map (·.1) → (s.markAll l).drawPal k = s.drawPal k) ∧
    ∀ t, (k, t) ∈ l → (s.markAll l).drawPal k = setTransparentBit (s.drawPal k) t := by
  induction l generalizing s with
  | nil => exact ⟨fun _ => rfl, fun _ h => absurd h (by simp)⟩
  | cons q l ih =>
    obtain ⟨c, t⟩ := q
    obtain ⟨hnot, hrest⟩ := List.nodup_cons.mp hnodup
    have hfirst := s.storeDrawPal_writes c (setTransparentBit (s.drawPal c) t)
    have hread : (s.markTransparent c t).drawPal k = if k = c then setTransparentBit (s.drawPal c) t else s.drawPal k :=
      s.drawPal_storeDrawPal hw hl c k _
    obtain ⟨hkept, hmarked⟩ := ih (s := s.markTransparent c t) (hfirst.wf hw) (hfirst.cfg ▸ hl) hrest
    refine ⟨fun hk => ?_, fun u hu => ?_⟩
    · obtain ⟨hne, hk⟩ := List.ne_and_not_mem_of_not_mem_cons hk
      exact (hkept hk).trans (hread.trans (if_neg hne))
    · rcases List.mem_cons.mp hu with heq | htail
      · obtain ⟨rfl, rfl⟩ := Prod.mk.inj heq
        exact (hkept hnot).trans (hread.trans (if_pos rfl))
      · have hne : k ≠ c := by rintro rfl; exact hnot (List.mem_map.mpr ⟨_, htail, rfl⟩)
        exact (hmarked u htail).trans (by rw [hread, if_neg hne])

theorem resetTransparency_nodup : (resetTransparency.map (·.1)).Nodup := by decide

theorem mem_resetTransparency : ∀ k : BitVec 4, (k, k == 0) ∈ resetTransparency := by decide

theorem exec_setTransparent_colour (a : Word) (t : Operand) (s : State) : exec (.setTransparent (some a) t) s =
    .next (s.storeDrawPal (low4 a) (setTransparentBit (s.drawPal (low4 a)) (optInt t 1 != 0))).noResult := rfl

theorem exec_setTransparent_none (t : Operand) (s : State) :
    exec (.setTransparent none t) s = .next (s.markAll resetTransparency).noResult := rfl

/-- The flag of `set_transparent` is clear for a supplied 0 only. -/
theorem optInt_flag_eq_zero_iff (t : Operand) : optInt t 1 = 0 ↔ t = some 0 := by
  simpa using optInt_eq_toInt_iff (o := t) (d := 1) 0

/-- Settles O22: one entry marked, or all sixteen. -/
theorem setTransparentStores : Obligations.SetTransparentStores := by
  intro s c t hw hl
  cases c with
  | none =>
    refine ⟨_, exec_setTransparent_none t s, (s.markAll_writes _).noResult, nofun, nofun, fun _ k => ?_⟩
    obtain ⟨-, hmarked⟩ := s.drawPal_markAll hw hl resetTransparency_nodup k
    rw [State.drawPal_noResult, hmarked _ (mem_resetTransparency k)]
    simp only [setTransparentBit, beq_iff_eq]
  | some a =>
    refine ⟨_, exec_setTransparent_colour a t s, (s.storeDrawPal_writes _ _).noResult, ?_, ?_, nofun⟩
    · rintro _ ⟨⟩ ht k
      have hset : (optInt t 1 != 0) = true := bne_iff_ne.mpr (mt (optInt_flag_eq_zero_iff t).mp ht)
      rw [State.drawPal_noResult, hset]
      exact s.drawPal_updateDrawPal hw hl (low4 a) k fun b => setTransparentBit b true
    · rintro _ ⟨⟩ ht k
      have hclear : (optInt t 1 != 0) = false := bne_eq_false_iff_eq.mpr ((optInt_flag_eq_zero_iff t).mpr ht)
      rw [State.drawPal_noResult, hclear]
      exact s.drawPal_updateDrawPal hw hl (low4 a) k fun b => setTransparentBit b false

/-- The hypotheses of `setTransparentStores` hold of the reset state; colour 1 becomes transparent and keeps its
colour. -/
theorem exec_setTransparent_reset : ∃ t, exec (.setTransparent (some 1) none) State.reset = .next t ∧
    t.drawPal 1 = 0x11 ∧ t.drawPal 2 = 2 := by
  obtain ⟨t, hexec, -, hset, -, -⟩ :=
    setTransparentStores State.reset (some 1) none rfl rfl
  exact ⟨t, hexec, (hset 1 rfl nofun 1).trans rfl, (hset 1 rfl nofun 2).trans rfl⟩

end Sys2Proof.Machine
end

section
/-! SUPPORT. The pixel-write path (46_raster_state.md R332 to R337): when `plot` writes and what, what drawing leaves
of the state it reads, and that the plotted pixels of a list do not depend on its order. -/

namespace Sys2Proof.Machine

/-! ## One pixel -/

/-- Does `plot` write the pixel: on screen, inside the clip rectangle, and no transparent secondary pixel? -/
def State.plots (s : State) (x y : Int) : Bool :=
  onSheet x y && s.inClip x y && !(fillBit s.fillp x y && s.fillTransparent)

/-- The pen colour the fill pattern selects at a pixel (R333). -/
def State.penColor (s : State) (x y : Int) : BitVec 4 :=
  if fillBit s.fillp x y then secondary s.pen else primary s.pen

/-- The nibble `plot` stores at a pixel that holds `old`. -/
def State.plotted (s : State) (x y : Int) (old : BitVec 4) : BitVec 4 := s.putColor (s.penColor x y) old

theorem State.plots_iff (s : State) (x y : Int) : s.plots x y = true ↔
    onSheet x y = true ∧ s.inClip x y = true ∧ ¬ (fillBit s.fillp x y = true ∧ s.fillTransparent = true) := by
  simp only [State.plots, Bool.and_eq_true, Bool.not_eq_true', ← Bool.not_eq_true, and_assoc]

theorem State.plot_eq (s : State) (x y : Int) : s.plot x y =
    if s.plots x y then s.pset screenBase x y (s.plotted x y (s.pget screenBase x y)) else s := by
  unfold State.plot State.pixelWrite State.plotted State.penColor State.plots State.pixelPut
  cases fillBit s.fillp x y
  · simp
  · cases s.fillTransparent <;> simp

/-- A pixel read after one is plotted. -/
theorem State.pget_plot {s : State} (hw : s.mem.wf = true) (x y x' y' : Int) :
    (s.plot x y).pget screenBase x' y' =
      if s.plots x y = true ∧ x' = x ∧ y' = y then s.plotted x y (s.pget screenBase x y)
      else s.pget screenBase x' y' := by
  rw [State.plot_eq]
  by_cases h : s.plots x y = true
  · obtain ⟨hon, -⟩ := (s.plots_iff x y).mp h
    rw [if_pos h, State.pget_pset s hw _ (by decide)]
    simp only [hon, h]
  · rw [if_neg h, if_neg fun hh => h hh.1]

/-- The bit of the fill pattern at a pixel (R334). -/
theorem fillBit_eq (pattern : Half) (x y : Int) :
    fillBit pattern x y = pattern.getLsbD (15 - ((x % 4).toNat + 4 * (y % 4).toNat)) := by
  rw [fillBit, show (x % 4 + 4 * (y % 4)).toNat = (x % 4).toNat + 4 * (y % 4).toNat by omega]

/-- Settles O23: the pixel is written exactly where `plots` holds, with the nibble `plotted`. -/
theorem pixelWriteValue : Obligations.PixelWriteValue := by
  intro s x y hw hon
  dsimp only
  have hread := State.pget_plot hw x y x y
  rw [← fillBit_eq, ← State.inClip_iff]
  refine ⟨fun hhidden => ?_, fun hclip hshown => ?_⟩
  · have hnot : ¬ s.plots x y = true := by
      rw [s.plots_iff]
      rintro ⟨-, hclip, hvisible⟩
      exact hhidden.elim (fun h => h hclip) hvisible
    rw [hread, if_neg fun h => hnot h.1]
  · have hplots : s.plots x y = true := by
      refine (s.plots_iff x y).mpr ⟨hon, hclip, ?_⟩
      rintro ⟨hbit, htrans⟩
      rcases hshown with h | h
      · exact Bool.false_ne_true (h.symm.trans hbit)
      · exact Bool.false_ne_true (h.symm.trans htrans)
    rw [hread, if_pos ⟨hplots, rfl, rfl⟩]
    exact ⟨fun hmask => if_pos hmask, fun hmask => if_neg hmask⟩

/-- The hypotheses of `pixelWriteValue` hold of the reset state and an odd pixel: it takes the pen's low nibble. -/
theorem plot_reset : (State.reset.plot 5 7).pget screenBase 5 7 = 6 := by
  obtain ⟨-, hshown⟩ := pixelWriteValue State.reset 5 7 rfl rfl
  exact ((hshown (by decide) (.inl rfl)).1 rfl).trans rfl

/-! ## What drawing leaves of the state it reads -/

section
variable {s t : State} (h : WritesOnly inScreen s t) (hw : s.mem.wf = true) (hl : s.cfg.layout.ok = true)
include h hw hl

/-- Drawing leaves the draw state. -/
theorem WritesOnly.peek_owned {f : DrawField} {a : Nat} (ha : s.cfg.layout.Owns f a) : t.peek a = s.peek a :=
  h.peek hw (not_inScreen_of_owns hl ha)

theorem WritesOnly.peek_field (f : DrawField) : t.peek (t.cfg.layout.addr f) = s.peek (s.cfg.layout.addr f) := by
  rw [h.cfg, h.peek_owned hw hl (s.cfg.layout.owns_addr f)]

theorem WritesOnly.fillp_of_screen : t.fillp = s.fillp := by
  have hhigh : s.cfg.layout.Owns .fillp (s.cfg.layout.fillp + 1) := ⟨Nat.le_succ _, Nat.lt_succ_self _⟩
  rw [State.fillp, h.cfg]
  exact h.peek16 hw (not_inScreen_of_owns hl (s.cfg.layout.owns_addr .fillp)) (not_inScreen_of_owns hl hhigh)

theorem WritesOnly.plots_of_screen (x y : Int) : t.plots x y = s.plots x y := by
  have hbelow (f : DrawField) : ¬ inScreen (s.cfg.layout.addr f) := not_inScreen_of_owns hl (s.cfg.layout.owns_addr f)
  have hclip : t.inClip x y = s.inClip x y :=
    h.inClip hw (hbelow .clipX0) (hbelow .clipY0) (hbelow .clipX1) (hbelow .clipY1) x y
  have htrans : t.fillpTrans = s.fillpTrans := h.peek_field hw hl .fillpTrans
  rw [State.plots, State.plots, hclip, h.fillp_of_screen hw hl, State.fillTransparent, State.fillTransparent, htrans]

theorem WritesOnly.plotted_of_screen (x y : Int) (old : BitVec 4) : t.plotted x y old = s.plotted x y old := by
  have hpen : t.pen = s.pen := h.peek_field hw hl .pen
  have hpal (c : BitVec 4) : t.drawPal c = s.drawPal c := by
    rw [State.drawPal, h.cfg, h.peek_owned hw hl (Layout.owns_drawPal _ c), State.drawPal]
  have hmask : t.bitmask = s.bitmask := by
    rw [State.bitmask, h.cfg, h.peek hw fun hscreen => ?_, State.bitmask]
    exact absurd hscreen.1 (by have := Layout.bitmask_bounds hl; omega)
  rw [State.plotted, State.plotted, State.penColor, State.penColor, State.putColor, State.putColor,
    h.fillp_of_screen hw hl, hpen, hpal, hmask]

end

/-! ## Lists of pixels -/

/-- One bit mixed with the old one under its write and read mask bits, twice. -/
theorem mixBit_idem (old write m read : Bool) :
    (((old && !write) || (m && write && read)) && !write || (m && write && read)) =
      ((old && !write) || (m && write && read)) := by
  cases write
  · simp
  · simp

/-- Masking with the same colour twice is masking once (R336). -/
theorem maskColor_idem (mask : Byte) (old m : BitVec 4) :
    maskColor mask (maskColor mask old m) m = maskColor mask old m := by
  unfold maskColor
  split
  · rfl
  · ext i hi
    simp only [BitVec.getElem_or, BitVec.getElem_and, BitVec.getElem_not]
    exact mixBit_idem _ _ _ _

/-- Plotting a pixel twice is plotting it once (R337 (d)). -/
theorem State.plotted_idem (s : State) (x y : Int) (old : BitVec 4) :
    s.plotted x y (s.plotted x y old) = s.plotted x y old := maskColor_idem _ _ _

/-- A pixel read after a list is plotted: plotted once if the list has it. -/
theorem State.pget_plotAll {s : State} (hw : s.mem.wf = true) (hl : s.cfg.layout.ok = true) (l : List (Int × Int))
    (x y : Int) : (s.plotAll l).pget screenBase x y =
      if (x, y) ∈ l ∧ s.plots x y = true then s.plotted x y (s.pget screenBase x y) else s.pget screenBase x y := by
  induction l generalizing s with
  | nil => simp [State.plotAll]
  | cons q l ih =>
    obtain ⟨a, b⟩ := q
    have hfirst : WritesOnly inScreen s (s.plot a b) := s.plot_screen a b
    have hrest := ih (s := s.plot a b) (hfirst.wf hw) (hfirst.cfg ▸ hl)
    rw [hfirst.plots_of_screen hw hl, hfirst.plotted_of_screen hw hl, State.pget_plot hw] at hrest
    refine hrest.trans ?_
    by_cases hhead : x = a ∧ y = b
    · obtain ⟨rfl, rfl⟩ := hhead
      by_cases hplots : s.plots x y = true
      · simp [hplots, State.plotted_idem]
      · simp [hplots]
    · have hne : ¬ (x, y) = (a, b) := fun h => hhead (Prod.mk.inj h)
      simp [hhead, hne]

/-- A byte is its two nibbles. -/
theorem byte_eq_of_nibbles {b c : Byte} (hlow : b.extractLsb' 0 4 = c.extractLsb' 0 4)
    (hhigh : b.extractLsb' 4 4 = c.extractLsb' 4 4) : b = c := by
  have happend (v : Byte) : v.extractLsb' 4 4 ++ v.extractLsb' 0 4 = v := by
    apply BitVec.eq_of_getLsbD_eq
    intro i hi
    rw [BitVec.getLsbD_append]
    by_cases h : i < 4
    · simp [h]
    · simp [h, show i - 4 < 4 by omega, show 4 + (i - 4) = i by omega]
  rw [← happend b, ← happend c, hlow, hhigh]

/-- Every byte of the screen holds two pixels side by side (10_state.md R29). -/
theorem exists_pixels_of_inScreen {a : Nat} (ha : inScreen a) : ∃ x y, x % 2 = 0 ∧ onSheet x y = true ∧
    onSheet (x + 1) y = true ∧ pixelAddr screenBase x y = a ∧ pixelAddr screenBase (x + 1) y = a := by
  obtain ⟨hlow, hhigh⟩ := ha
  refine ⟨2 * (((a - 0x6000) % 64 : Nat) : Int), ((a - 0x6000) / 64 : Nat), ?_, ?_, ?_, ?_, ?_⟩
  · omega
  · simp only [onSheet, Bool.and_eq_true, decide_eq_true_eq]
    omega
  · simp only [onSheet, Bool.and_eq_true, decide_eq_true_eq]
    omega
  · unfold pixelAddr screenBase
    omega
  · unfold pixelAddr screenBase
    omega

/-- What is drawn is determined by the pixels of the screen. -/
theorem eq_of_pget_screen {s t u : State} (ht : WritesOnly inScreen s t) (hu : WritesOnly inScreen s u)
    (hw : s.mem.wf = true)
    (hpix : ∀ x y, onSheet x y = true → t.pget screenBase x y = u.pget screenBase x y) : t = u := by
  have hbyte (a : Nat) : t.peek a = u.peek a := by
    by_cases ha : inScreen a
    · obtain ⟨x, y, heven, hon, hon', haddr, haddr'⟩ := exists_pixels_of_inScreen ha
      have hlow := hpix x y hon
      have hhigh := hpix (x + 1) y hon'
      rw [State.pget_on _ _ hon, State.pget_on _ _ hon, haddr, nibbleAt, nibbleAt, if_pos heven, if_pos heven] at hlow
      rw [State.pget_on _ _ hon', State.pget_on _ _ hon', haddr', nibbleAt, nibbleAt, if_neg (by omega),
        if_neg (by omega)] at hhigh
      exact byte_eq_of_nibbles hlow hhigh
    · rw [ht.peek hw ha, hu.peek hw ha]
  have hmem : t.mem = u.mem := Memory.ext (ht.wf hw) (hu.wf hw) hbyte
  rw [ht.1, hu.1, hmem]

/-- Settles O24: each pixel is plotted once if it is in the list, whatever the order. -/
theorem plotOrderIrrelevant : Obligations.PlotOrderIrrelevant := by
  intro s p q hw hl hmem
  refine eq_of_pget_screen (s.plotAll_screen p) (s.plotAll_screen q) hw fun x y _ => ?_
  rw [State.pget_plotAll hw hl, State.pget_plotAll hw hl]
  simp only [hmem]

/-- The hypotheses of `plotOrderIrrelevant` hold of the reset state and of two pixels that share a byte. -/
theorem plotAll_reset_swapped :
    State.reset.plotAll [(4, 7), (5, 7)] = State.reset.plotAll [(5, 7), (4, 7), (5, 7)] :=
  plotOrderIrrelevant State.reset _ _ rfl rfl fun z => by simp; tauto

end Sys2Proof.Machine
end

section
/-! SUPPORT. The pen-based commands (46_raster_state.md R337, R338; 47_raster_primitives.md R360 to R364, R370, R371):
what a list of plotted pixels leaves of screen and pen, then `clear`, the single pixels and the rectangles. -/

namespace Sys2Proof.Machine

/-! ## The colour step -/

/-- The bytes the colour step and the plotted pixels may write. -/
def PenOrScreen (l : Layout) (a : Nat) : Prop := inScreen a ∨ l.Owns .pen a

theorem not_penOrScreen {l : Layout} (hl : l.ok = true) {f : DrawField} (hf : f ≠ .pen) {a : Nat} (ha : l.Owns f a) :
    ¬ PenOrScreen l a := by
  rintro (hscreen | hpen)
  · exact not_inScreen_of_owns hl ha hscreen
  · exact hf (Layout.owns_unique hl ha hpen)

theorem State.colorStep_writes_pen (s : State) (c : Operand) : WritesOnly (s.cfg.layout.Owns .pen) s (s.colorStep c) :=
  (s.colorStep_writes c).mono (by rintro _ ⟨-, rfl⟩; exact s.cfg.layout.owns_addr .pen)

theorem State.colorStep_plotAll_writes (s : State) (c : Operand) (l : List (Int × Int)) :
    WritesOnly (PenOrScreen s.cfg.layout) s ((s.colorStep c).plotAll l) :=
  ((s.colorStep_writes_pen c).mono fun _ => .inr).trans ((State.plotAll_screen _ l).mono fun _ => .inl)

section
variable {s t : State} (h : WritesOnly (PenOrScreen s.cfg.layout) s t) (hw : s.mem.wf = true)
  (hl : s.cfg.layout.ok = true)
include h hw hl

theorem WritesOnly.peek16_of_penOrScreen {f : DrawField} (hf : f.width = 2) (hne : f ≠ .pen) :
    t.peek16 (s.cfg.layout.addr f) = s.peek16 (s.cfg.layout.addr f) :=
  h.peek16 hw (not_penOrScreen hl hne (s.cfg.layout.owns_addr f))
    (not_penOrScreen hl hne ⟨Nat.le_succ _, by omega⟩)

theorem WritesOnly.cameraX_of_penOrScreen : t.cameraX = s.cameraX := by
  rw [State.cameraX, h.cfg]
  exact congrArg BitVec.toInt (h.peek16_of_penOrScreen hw hl (f := .cameraX) rfl nofun)

theorem WritesOnly.cameraY_of_penOrScreen : t.cameraY = s.cameraY := by
  rw [State.cameraY, h.cfg]
  exact congrArg BitVec.toInt (h.peek16_of_penOrScreen hw hl (f := .cameraY) rfl nofun)

theorem WritesOnly.inClip_of_penOrScreen (x y : Int) : t.inClip x y = s.inClip x y := by
  have hother {f : DrawField} (hf : f ≠ .pen) : ¬ PenOrScreen s.cfg.layout (s.cfg.layout.addr f) :=
    not_penOrScreen hl hf (s.cfg.layout.owns_addr f)
  exact h.inClip hw (hother (f := .clipX0) nofun) (hother (f := .clipY0) nofun) (hother (f := .clipX1) nofun)
    (hother (f := .clipY1) nofun) x y

end

section
variable {s : State} (hw : s.mem.wf = true) (hl : s.cfg.layout.ok = true) (c : Operand)
include hw hl

/-- The pen a supplied colour leaves (R338). -/
theorem State.pen_colorStep_some (w : Word) : (s.colorStep (some w)).pen = low8 w := by
  rw [State.pen, (s.colorStep_writes_pen (some w)).cfg]
  exact State.peek_poke_self hw (addr_lt_ramSize hl .pen) (low8 w)

/-- The colour step draws nothing. -/
theorem State.pget_colorStep (x y : Int) : (s.colorStep c).pget screenBase x y = s.pget screenBase x y :=
  (s.colorStep_writes_pen c).pget_screen hw (fun _ ha => not_inScreen_of_owns hl ha) x y

theorem State.fillp_colorStep : (s.colorStep c).fillp = s.fillp := by
  have hpen : WritesOnly (s.cfg.layout.Owns .pen) s (s.colorStep c) := s.colorStep_writes_pen c
  rw [State.fillp, hpen.cfg]
  exact hpen.peek16_field (f := .fillp) hw hl rfl nofun

theorem State.drawPal_colorStep (k : BitVec 4) : (s.colorStep c).drawPal k = s.drawPal k :=
  (s.colorStep_writes_pen c).drawPal hw (fun _ hpal hpen => DrawField.noConfusion (Layout.owns_unique hl hpal hpen)) k

theorem State.bitmask_colorStep : (s.colorStep c).bitmask = s.bitmask :=
  (s.colorStep_writes_pen c).byteView hw (v := Layout.bitmask) fun hpen =>
    absurd (hpen.lt hl) (by have := Layout.bitmask_bounds hl; omega)

theorem State.inClip_colorStep (x y : Int) : (s.colorStep c).inClip x y = s.inClip x y :=
  ((s.colorStep_writes_pen c).mono fun _ => .inr).inClip_of_penOrScreen hw hl x y

end

/-! ## Shapes -/

section
variable {P : Nat → Prop} {s t u : State} {c : Operand} {shape : Int → Int → Prop}

theorem DrawsShape.noResult (h : DrawsShape s c shape t) : DrawsShape s c shape t.noResult := h

theorem PenAfter.noResult (h : PenAfter s c t) : PenAfter s c t.noResult := h

/-- A shape drawn stays drawn when no byte of the screen is written. -/
theorem DrawsShape.writes (h : DrawsShape s c shape t) (hu : WritesOnly P t u) (hw : t.mem.wf = true)
    (hP : ∀ a, P a → ¬ inScreen a) : DrawsShape s c shape u := by
  intro x y hon
  rw [hu.pget_screen hw hP]
  exact h x y hon

/-- The pen stays when its byte is not written. -/
theorem PenAfter.writes (h : PenAfter s c t) (hu : WritesOnly P t u) (hw : t.mem.wf = true)
    (hP : ¬ P t.cfg.layout.pen) : PenAfter s c u := by
  have hpen : u.pen = t.pen := hu.byteView hw (v := Layout.pen) hP
  rw [PenAfter, hpen]
  exact h

/-- Drawing after the colour step leaves the pen the colour step left. -/
theorem penAfter_colorStep_of_screen (hw : s.mem.wf = true) (hl : s.cfg.layout.ok = true)
    (h : WritesOnly inScreen (s.colorStep c) t) : PenAfter s c t := by
  have hpen : WritesOnly (s.cfg.layout.Owns .pen) s (s.colorStep c) := s.colorStep_writes_pen c
  have hkept : t.pen = (s.colorStep c).pen := h.peek_field (hpen.wf hw) (hpen.cfg ▸ hl) .pen
  rw [PenAfter, hkept]
  refine ⟨?_, ?_⟩
  · rintro w rfl
    exact State.pen_colorStep_some hw hl w
  · rintro rfl
    rfl

theorem penAfter_plotAll (hw : s.mem.wf = true) (hl : s.cfg.layout.ok = true) (l : List (Int × Int)) :
    PenAfter s c ((s.colorStep c).plotAll l) := penAfter_colorStep_of_screen hw hl (State.plotAll_screen _ l)

/-- A pen-based command draws the shape whose on-screen points are the ones it plots. -/
theorem drawsShape_plotAll (hw : s.mem.wf = true) (hl : s.cfg.layout.ok = true) {l : List (Int × Int)}
    (hshape : ∀ x y, onSheet x y = true → ((x, y) ∈ l ↔ shape x y)) :
    DrawsShape s c shape ((s.colorStep c).plotAll l) := by
  intro x y hon
  have hpen : WritesOnly (s.cfg.layout.Owns .pen) s (s.colorStep c) := s.colorStep_writes_pen c
  have hread := State.pget_plotAll (hpen.wf hw) (hpen.cfg ▸ hl) l x y
  refine ⟨fun hin => ?_, fun hout => ?_⟩
  · have hmem : (x, y) ∈ l := (hshape x y hon).mpr hin
    rw [hread, State.pget_plot (hpen.wf hw)]
    simp [hmem]
  · have hmem : (x, y) ∉ l := mt (hshape x y hon).mp hout
    rw [hread, if_neg fun h => hmem h.1, State.pget_colorStep hw hl]

/-- The whole effect of the colour step and the plotted points, as the obligations state it. -/
theorem exists_draws {i : Instr} {l : List (Int × Int)} (hw : s.mem.wf = true) (hl : s.cfg.layout.ok = true)
    (hexec : exec i s = .next ((s.colorStep c).plotAll l).noResult)
    (hshape : ∀ x y, onSheet x y = true → ((x, y) ∈ l ↔ shape x y)) :
    ∃ t, exec i s = .next t ∧ PenAfter s c t ∧ DrawsShape s c shape t :=
  ⟨_, hexec, (penAfter_plotAll hw hl l).noResult, (drawsShape_plotAll hw hl hshape).noResult⟩

end

/-! ## Clear -/

@[simp] theorem State.peek_noResult (s : State) (a : Nat) : s.noResult.peek a = s.peek a := rfl

/-- Every byte of the framebuffer stored. -/
def State.fillScreen (s : State) (b : Byte) : State := s.storeBlock screenBase (List.replicate 0x2000 b)

theorem State.fillScreen_writes (s : State) (b : Byte) : WritesOnly inScreen s (s.fillScreen b) :=
  (s.storeBlock_writes screenBase _).mono fun a ha => by
    rw [List.length_replicate] at ha
    exact ha

theorem State.peek_fillScreen (s : State) (b : Byte) {a : Nat} (ha : inScreen a) : (s.fillScreen b).peek a = b := by
  have hlen : (List.replicate 0x2000 b).length = 0x2000 := List.length_replicate
  obtain ⟨hlow, hhigh⟩ := ha
  have hfits : screenBase + (List.replicate 0x2000 b).length ≤ ramSize := by rw [hlen]; decide
  rw [State.fillScreen, State.peek_storeBlock s _ _ hfits, hlen, if_pos ⟨hlow, hhigh⟩]
  exact List.getD_replicate b (show a - 0x6000 < 0x2000 by omega)

theorem exec_clear (c : Operand) (s : State) : exec (.clear c) s =
    .next ((s.fillScreen (clearByte c)).storeFields [(.cursorX, 0), (.cursorY, 0)]).noResult := by
  show Host.Outcome.next (State.noResult (State.pokePairs (s.fillScreen _) _)) = _
  rw [State.storeFields, (s.fillScreen_writes _).cfg]
  rfl

/-- Settles O26: the framebuffer filled, then the two cursor bytes. -/
theorem clearFills : Obligations.ClearFills := by
  intro s c hw hl
  have hfill : WritesOnly inScreen s (s.fillScreen (clearByte c)) := s.fillScreen_writes _
  have hlayout : (s.fillScreen (clearByte c)).cfg.layout = s.cfg.layout := congrArg Config.layout hfill.cfg
  have hl' : (s.fillScreen (clearByte c)).cfg.layout.ok = true := by rw [hlayout, hl]
  have hcursor := (s.fillScreen (clearByte c)).storeFields_writes [(.cursorX, 0), (.cursorY, 0)]
  have hread {f : DrawField} {v : Byte} := (s.fillScreen (clearByte c)).peek_storeFields (hfill.wf hw) hl'
    (fs := [(.cursorX, 0), (.cursorY, 0)]) (by simp) (f := f) (v := v)
  have hkept {a : Nat} (ha : inScreen a) :
      ((s.fillScreen (clearByte c)).storeFields [(.cursorX, 0), (.cursorY, 0)]).peek a = clearByte c := by
    rw [hcursor.peek (hfill.wf hw) ?_, s.peek_fillScreen _ ha]
    rintro ⟨f, -, rfl⟩
    exact not_inScreen_of_owns hl' (Layout.owns_addr _ f) ha
  refine ⟨_, exec_clear c s, ((hfill.mono fun _ => .inl).trans (hcursor.mono fun a ha => .inr ?_)).noResult,
    fun a ha => ⟨?_, ?_⟩, ?_, ?_⟩
  · rintro w rfl
    rw [State.peek_noResult, hkept ha, clearByte, low4]
  · rintro rfl
    rw [State.peek_noResult, hkept ha, clearByte]
  · rw [State.cursorX_noResult]
    exact hread (f := .cursorX) (by simp)
  · rw [State.cursorY_noResult]
    exact hread (f := .cursorY) (by simp)
  · simpa [hlayout, Layout.addr] using ha

/-- The hypotheses of `clearFills` hold of the reset state: the last framebuffer byte takes the colour twice. -/
theorem exec_clear_reset : ∃ t, exec (.clear (some 0x1C)) State.reset = .next t ∧ t.peek 0x7FFF = 0xCC := by
  obtain ⟨t, hexec, -, hfilled, -⟩ := clearFills State.reset (some 0x1C) rfl rfl
  exact ⟨t, hexec, (hfilled 0x7FFF (by simp [inScreen])).1 _ rfl⟩

/-! ## Single pixels -/

theorem onSheet_iff (x y : Int) : onSheet x y = true ↔ 0 ≤ x ∧ x < 128 ∧ 0 ≤ y ∧ y < 128 := by
  simp only [onSheet, Bool.and_eq_true, decide_eq_true_eq, and_assoc]

theorem exec_setPixel (x y : Word) (c : Operand) (s : State) : exec (.setPixel (some x) (some y) c) s =
    .next ((s.colorStep c).plotAll [(x.toInt - s.cameraX, y.toInt - s.cameraY)]).noResult := rfl

theorem exec_getPixel (x y : Word) (s : State) : exec (.getPixel (some x) (some y)) s =
    .next (s.returns ((s.visiblePixel (x.toInt - s.cameraX) (y.toInt - s.cameraY)).setWidth 32)) := rfl

@[simp] theorem State.visiblePixel_noResult (s : State) (x y : Int) :
    s.noResult.visiblePixel x y = s.visiblePixel x y := rfl

theorem State.visiblePixel_of_visible {s : State} {x y : Int} (hon : onSheet x y = true) (hclip : s.inClip x y = true) :
    s.visiblePixel x y = s.pget screenBase x y := by rw [State.visiblePixel, hon, hclip]; rfl

theorem State.visiblePixel_of_hidden {s : State} {x y : Int} (h : ¬ (onSheet x y = true ∧ s.inClip x y = true)) :
    s.visiblePixel x y = 0 := if_neg (mt (Bool.and_eq_true _ _).mp h)

/-- Settles O27: `set_pixel` plots a list of one point, `get_pixel` reads a visible one. -/
theorem pixelCommands : Obligations.PixelCommands := by
  intro s x y c hw hl
  have hdraws := exists_draws hw hl (exec_setPixel x y c s)
    (shape := fun X Y => X = x.toInt - s.cameraX ∧ Y = y.toInt - s.cameraY) (by simp)
  refine ⟨?_, ?_⟩
  · obtain ⟨t, hexec, hpen, hshape⟩ := hdraws
    exact ⟨t, hexec, hshape, hpen⟩
  · have hvisible (X Y : Int) : onSheet X Y = true ∧ s.inClip X Y = true ↔ 0 ≤ X ∧ X < 128 ∧ 0 ≤ Y ∧ Y < 128 ∧
        (s.clipX0.toNat : Int) ≤ X ∧ X < s.clipX1.toNat ∧ (s.clipY0.toNat : Int) ≤ Y ∧ Y < s.clipY1.toNat := by
      rw [onSheet_iff, State.inClip_iff]
      tauto
    intro X Y
    dsimp only
    rw [← hvisible, exec_getPixel]
    refine ⟨?_, fun hhidden => ?_⟩
    · rintro ⟨hon, hclip⟩
      rw [State.visiblePixel_of_visible hon hclip]
      rfl
    · rw [State.visiblePixel_of_hidden hhidden]
      rfl

/-- The hypotheses of `pixelCommands` hold of the reset state: a point left of the screen reads as 0. -/
theorem exec_getPixel_reset : exec (.getPixel (some 0xFFFFFFFF) (some 3)) State.reset =
    .next { State.reset with result := some 0 } :=
  (pixelCommands State.reset 0xFFFFFFFF 3 none rfl rfl).2.2 (by decide)

/-- A pixel plotted without a bitmask where the fill pattern has a 0 takes the primary pen's palette entry. -/
theorem State.plotted_primary {s : State} {x y : Int} (hfill : fillBit s.fillp x y = false) (hmask : s.bitmask = 0)
    (old : BitVec 4) : s.plotted x y old = (s.drawPal (primary s.pen)).extractLsb' 0 4 := by
  rw [State.plotted, State.penColor, hfill, State.putColor, maskColor, if_pos hmask]
  rfl

theorem primary_low8 (w : Word) : primary (low8 w) = w.extractLsb' 0 4 := by
  unfold primary low8
  ext i hi
  simp

theorem setWidth_extract_low (w : Word) : (w.extractLsb' 0 4).setWidth 32 = w &&& 0xF := by
  apply BitVec.eq_of_toNat_eq
  simp only [BitVec.toNat_setWidth, BitVec.extractLsb'_toNat, BitVec.toNat_and]
  have hlow : w.toNat &&& 15 = w.toNat % 16 := Nat.and_two_pow_sub_one_eq_mod w.toNat 4
  simp only [Nat.shiftRight_zero]
  show w.toNat % 16 % 4294967296 = w.toNat &&& 15
  omega

/-- Settles O28: the pixel is visible before and after, and the palette gives the colour back. -/
theorem pixelPacking : Obligations.PixelPacking := by
  intro s x y c hw hl hon hclip hfill hpal hmask
  generalize hX : x.toInt - s.cameraX = X at *
  generalize hY : y.toInt - s.cameraY = Y at *
  have hpen : WritesOnly (s.cfg.layout.Owns .pen) s (s.colorStep (some c)) := s.colorStep_writes_pen (some c)
  have hwrites := s.colorStep_plotAll_writes (some c) [(X, Y)]
  have hplots : (s.colorStep (some c)).plots X Y = true := by
    rw [State.plots_iff, State.inClip_colorStep hw hl, State.fillp_colorStep hw hl, hfill]
    exact ⟨hon, hclip, nofun⟩
  have hstored : ((s.colorStep (some c)).plotAll [(X, Y)]).pget screenBase X Y = c.extractLsb' 0 4 := by
    rw [State.pget_plotAll (hpen.wf hw) (hpen.cfg ▸ hl), if_pos ⟨List.mem_singleton.mpr rfl, hplots⟩,
      State.plotted_primary (by rw [State.fillp_colorStep hw hl, hfill]) (by rw [State.bitmask_colorStep hw hl, hmask]),
      State.drawPal_colorStep hw hl, State.pen_colorStep_some hw hl, primary_low8, hpal]
  have hseen : ((s.colorStep (some c)).plotAll [(X, Y)]).inClip X Y = true := by
    rw [hwrites.inClip_of_penOrScreen hw hl, hclip]
  refine ⟨_, exec_setPixel x y (some c) s, ?_⟩
  rw [exec_getPixel, State.cameraX_noResult, State.cameraY_noResult, hX, hY, hwrites.cameraX_of_penOrScreen hw hl,
    hwrites.cameraY_of_penOrScreen hw hl, hX, hY, State.visiblePixel_noResult,
    State.visiblePixel_of_visible hon hseen, hstored, setWidth_extract_low]
  rfl

/-- The hypotheses of `pixelPacking` hold of the reset state and the last pixel of the screen. -/
theorem exec_setPixel_getPixel_reset : ∃ t,
    exec (.setPixel (some 127) (some 127) (some 0x39)) State.reset = .next t ∧
    exec (.getPixel (some 127) (some 127)) t = .next { t with result := some 9 } :=
  pixelPacking State.reset 127 127 0x39 rfl rfl rfl rfl rfl rfl rfl

/-! ## Rectangles -/

theorem mem_screenRange {lo hi v : Int} : v ∈ screenRange lo hi ↔ lo ≤ v ∧ v ≤ hi ∧ 0 ≤ v ∧ v ≤ 127 := by
  simp only [screenRange, clampRange, List.mem_map, List.bind_eq_flatMap, List.pure_def, List.mem_flatMap,
    List.mem_range, List.mem_singleton]
  constructor
  · rintro ⟨_, ⟨i, hi, rfl⟩, rfl⟩
    omega
  · intro h
    exact ⟨v - max lo 0, ⟨(v - max lo 0).toNat, by omega, by omega⟩, by omega⟩

/-- The on-screen points of a horizontal run. -/
theorem mem_rowPoints {xa xb y' x y : Int} (hon : onSheet x y = true) :
    (x, y) ∈ rowPoints xa xb y' ↔ xa ≤ x ∧ x ≤ xb ∧ y = y' := by
  rw [onSheet_iff] at hon
  simp only [rowPoints, List.mem_map, mem_screenRange, Prod.mk.injEq]
  constructor
  · rintro ⟨v, hv, rfl, rfl⟩
    omega
  · rintro ⟨hlow, hhigh, rfl⟩
    exact ⟨x, by omega, rfl, rfl⟩

/-- The on-screen points of a vertical run. -/
theorem mem_columnPoints {x' ya yb x y : Int} (hon : onSheet x y = true) :
    (x, y) ∈ columnPoints x' ya yb ↔ ya ≤ y ∧ y ≤ yb ∧ x = x' := by
  rw [onSheet_iff] at hon
  simp only [columnPoints, List.mem_map, mem_screenRange, Prod.mk.injEq]
  constructor
  · rintro ⟨v, hv, rfl, rfl⟩
    omega
  · rintro ⟨hlow, hhigh, rfl⟩
    exact ⟨y, by omega, rfl, rfl⟩

theorem mem_rectPoints {xa ya xb yb x y : Int} (hon : onSheet x y = true) : (x, y) ∈ rectPoints xa ya xb yb ↔
    (xa ≤ x ∧ x ≤ xb ∧ (y = ya ∨ y = yb)) ∨ (ya ≤ y ∧ y ≤ yb ∧ (x = xa ∨ x = xb)) := by
  simp only [rectPoints, List.mem_append, mem_rowPoints hon, mem_columnPoints hon]
  tauto

theorem mem_rectFillPoints {xa ya xb yb x y : Int} (hon : onSheet x y = true) :
    (x, y) ∈ rectFillPoints xa ya xb yb ↔ xa ≤ x ∧ x ≤ xb ∧ ya ≤ y ∧ y ≤ yb := by
  simp only [rectFillPoints, List.mem_flatMap, mem_rowPoints hon, mem_screenRange]
  rw [onSheet_iff] at hon
  constructor
  · rintro ⟨v, hv, hlow, hhigh, rfl⟩
    omega
  · intro h
    exact ⟨y, by omega, by omega, by omega, rfl⟩

/-- Settles O31: the plotted points of each rectangle are the points of its shape. -/
theorem rectanglesDraw : Obligations.RectanglesDraw := fun _ _ _ _ _ _ hw hl =>
  ⟨exists_draws hw hl rfl fun _ _ hon => mem_rectPoints hon,
    exists_draws hw hl rfl fun _ _ hon => mem_rectFillPoints hon⟩

/-- The hypotheses of `rectanglesDraw` hold of the reset state and of swapped corners: the inside of a border stays
black. -/
theorem exec_rect_reset : ∃ t,
    exec (.rect (some 5) (some 5) (some 2) (some 2) (some 8)) State.reset = .next t ∧ t.pget screenBase 3 3 = 0 := by
  obtain ⟨t, hexec, -, hdraws⟩ := (rectanglesDraw State.reset 5 5 2 2 (some 8) rfl rfl).1
  exact ⟨t, hexec, ((hdraws 3 3 rfl).2 (by decide)).trans rfl⟩

end Sys2Proof.Machine
end

section
/-! SUPPORT. The line (47_raster_primitives.md R365 to R367): the path of `draw_line`, and the `line` command. -/

namespace Sys2Proof.Machine

/-! ## One iteration -/

section
variable {x1 y1 dx dy sx sy : Int} {n : Nat} {x y err : Int}

theorem lineLoop_succ : lineLoop x1 y1 dx dy sx sy (n + 1) x y err =
    if x = x1 ∧ y = y1 then [(x, y)]
    else (x, y) :: lineLoop x1 y1 dx dy sx sy n (if dy ≤ 2 * err then x + sx else x)
      (if 2 * err ≤ dx then y + sy else y)
      (err + (if dy ≤ 2 * err then dy else 0) + (if 2 * err ≤ dx then dx else 0)) := rfl

theorem lineLoop_end : lineLoop x1 y1 dx dy sx sy (n + 1) x1 y1 err = [(x1, y1)] := if_pos ⟨rfl, rfl⟩

theorem lineLoop_head : (lineLoop x1 y1 dx dy sx sy (n + 1) x y err).head? = some (x, y) := by
  rw [lineLoop_succ]
  split
  · rfl
  · rfl

/-- An iteration that steps in x; the error decides whether it steps in y too. -/
theorem lineLoop_stepX (hx : x ≠ x1) (hstep : dy ≤ 2 * err) : lineLoop x1 y1 dx dy sx sy (n + 1) x y err =
    (x, y) :: if 2 * err ≤ dx then lineLoop x1 y1 dx dy sx sy n (x + sx) (y + sy) (err + dy + dx)
      else lineLoop x1 y1 dx dy sx sy n (x + sx) y (err + dy) := by
  rw [lineLoop_succ, if_neg fun h => hx h.1]
  by_cases hy : 2 * err ≤ dx
  · simp [hstep, hy]
  · simp [hstep, hy]

end

theorem linePoints_eq (x0 y0 x1 y1 : Int) : linePoints x0 y0 x1 y1 =
    lineLoop x1 y1 (x1 - x0).natAbs (-((y1 - y0).natAbs : Int)) (if x0 < x1 then 1 else -1) (if y0 < y1 then 1 else -1)
      (max (x1 - x0).natAbs (y1 - y0).natAbs + 1) x0 y0 ((x1 - x0).natAbs + -((y1 - y0).natAbs : Int)) := rfl

/-! ## Exchanging the coordinates -/

/-- Exchanging the coordinates negates the error. -/
theorem lineLoop_swap (x1 y1 dx dy sx sy : Int) (n : Nat) (x y err : Int) :
    lineLoop x1 y1 dx dy sx sy n x y err =
      (lineLoop y1 x1 (-dy) (-dx) sy sx n y x (-err)).map Prod.swap := by
  induction n generalizing x y err with
  | zero => rfl
  | succ n ih =>
    by_cases hend : x = x1 ∧ y = y1
    · obtain ⟨rfl, rfl⟩ := hend
      rw [lineLoop_end, lineLoop_end]
      rfl
    · have hflip : ¬ (y = y1 ∧ x = x1) := fun h => hend h.symm
      have hx : -dx ≤ 2 * -err ↔ 2 * err ≤ dx := by omega
      have hy : 2 * -err ≤ -dy ↔ dy ≤ 2 * err := by omega
      have herr : -err + (if 2 * err ≤ dx then -dx else 0) + (if dy ≤ 2 * err then -dy else 0) =
          -(err + (if dy ≤ 2 * err then dy else 0) + (if 2 * err ≤ dx then dx else 0)) := by
        split <;> split <;> omega
      rw [lineLoop_succ, lineLoop_succ, if_neg hend, if_neg hflip]
      simp only [hx, hy, herr, List.map_cons, Prod.swap_prod_mk, ← ih]

theorem linePoints_swap (x0 y0 x1 y1 : Int) :
    linePoints x0 y0 x1 y1 = (linePoints y0 x0 y1 x1).map Prod.swap := by
  rw [linePoints_eq, linePoints_eq, lineLoop_swap, max_comm]
  simp only [neg_neg, neg_add_rev]

/-! ## Lines of at least as many columns as rows -/

/-- The error of R366 with `k` columns and `m` rows still to go, for a line of `D` columns and `N` rows beside the
first, and its bounds: it is never so far off that the line would miss a row. -/
structure LineError (D N k m err : Int) : Prop where
  err_eq : err = D - N - D * m + N * k
  lower : D - 2 * N ≤ 2 * err
  upper : 2 * err ≤ 3 * D - 2 * N

section
variable {D N k m err : Int}

/-- In the last column the line is in its last row. -/
theorem LineError.rows_eq_zero (h : LineError D N 0 m err) (hD : 0 < D) : m = 0 := by
  obtain ⟨heq, hlower, hupper⟩ := h
  have hle : m < 1 := by nlinarith
  have hge : -1 < m := by nlinarith
  omega

theorem LineError.stepX (h : LineError D N (k + 1) m err) (hup : D < 2 * err) (hN : 0 ≤ N) :
    LineError D N k m (err + -N) := by
  obtain ⟨heq, hlower, hupper⟩ := h
  exact ⟨by rw [heq]; ring, by omega, by omega⟩

theorem LineError.stepXY (h : LineError D N (k + 1) m err) (hlow : 2 * err ≤ D) (hND : N ≤ D) :
    LineError D N k (m - 1) (err + -N + D) := by
  obtain ⟨heq, hlower, hupper⟩ := h
  exact ⟨by rw [heq]; ring, by omega, by omega⟩

end

/-- With columns still to go the loop is not in its last column. -/
theorem column_ne {sx : Int} (hsx : sx ≠ 0) (x1 : Int) (k : Nat) : x1 - sx * ((k + 1 : Nat) : Int) ≠ x1 := by
  have hcolumns : sx * ((k + 1 : Nat) : Int) ≠ 0 := mul_ne_zero hsx (by omega)
  omega

/-- A step in x leaves one column less to go. -/
theorem column_add (x1 sx : Int) (k : Nat) : x1 - sx * ((k + 1 : Nat) : Int) + sx = x1 - sx * k := by
  push_cast
  ring

/-- The loop plots one pixel in each column still to go and ends at the end point. -/
theorem lineLoop_columns {x1 y1 D N sx sy : Int} (hsx : sx ≠ 0) (hN : 0 ≤ N) (hND : N ≤ D) (hD : 0 < D) (k : Nat)
    {m err : Int} (h : LineError D N k m err) :
    (lineLoop x1 y1 D (-N) sx sy (k + 1) (x1 - sx * k) (y1 - sy * m) err).length = k + 1 ∧
    (lineLoop x1 y1 D (-N) sx sy (k + 1) (x1 - sx * k) (y1 - sy * m) err).getLast? = some (x1, y1) := by
  induction k generalizing m err with
  | zero =>
    obtain rfl := h.rows_eq_zero hD
    rw [show x1 - sx * ((0 : Nat) : Int) = x1 by simp, show y1 - sy * 0 = y1 by simp, lineLoop_end]
    exact ⟨rfl, rfl⟩
  | succ k ih =>
    rw [lineLoop_stepX (column_ne hsx x1 k) (by have := h.lower; omega), column_add]
    push_cast at h
    by_cases hy : 2 * err ≤ D
    · rw [if_pos hy, show y1 - sy * m + sy = y1 - sy * (m - 1) by ring]
      obtain ⟨hlength, hlast⟩ := ih (h.stepXY hy hND)
      exact ⟨by rw [List.length_cons, hlength], by rw [List.getLast?_cons, hlast]; rfl⟩
    · rw [if_neg hy]
      obtain ⟨hlength, hlast⟩ := ih (h.stepX (by omega) hN)
      exact ⟨by rw [List.length_cons, hlength], by rw [List.getLast?_cons, hlast]; rfl⟩

/-- The direction of R366 times the distance is the way from one coordinate to the other. -/
theorem direction_mul_natAbs (a b : Int) : (if a < b then 1 else -1) * ((b - a).natAbs : Int) = b - a := by
  split <;> omega

theorem direction_ne_zero (a b : Int) : (if a < b then (1 : Int) else -1) ≠ 0 := by
  split <;> omega

theorem linePoints_self (x y : Int) : linePoints x y x y = [(x, y)] := lineLoop_end

/-- R367 for a line of at least as many columns as rows. -/
theorem linePoints_columns {x0 y0 x1 y1 : Int} (h : (y1 - y0).natAbs ≤ (x1 - x0).natAbs) :
    (linePoints x0 y0 x1 y1).length = (x1 - x0).natAbs + 1 ∧
    (linePoints x0 y0 x1 y1).getLast? = some (x1, y1) := by
  by_cases hpoint : x0 = x1
  · obtain rfl : y0 = y1 := by omega
    subst hpoint
    rw [linePoints_self]
    simp
  · have hstart : LineError (x1 - x0).natAbs (y1 - y0).natAbs (x1 - x0).natAbs (y1 - y0).natAbs
        ((x1 - x0).natAbs + -((y1 - y0).natAbs : Int)) := ⟨by ring, by omega, by omega⟩
    have hloop := lineLoop_columns (x1 := x1) (y1 := y1) (sy := if y0 < y1 then 1 else -1) (direction_ne_zero x0 x1)
      (by omega) (by omega) (by omega) (x1 - x0).natAbs hstart
    rw [direction_mul_natAbs, direction_mul_natAbs, sub_sub_cancel, sub_sub_cancel] at hloop
    rw [linePoints_eq, max_eq_left h]
    exact hloop

/-! ## Horizontal lines -/

/-- A loop without rows to go visits the columns up to the end point. -/
theorem mem_lineLoop_row {x1 y D sx sy : Int} (hsx : sx ≠ 0) (hD : 0 < D) (k : Nat) (p : Int × Int) :
    p ∈ lineLoop x1 y D 0 sx sy (k + 1) (x1 - sx * k) y D ↔ p.2 = y ∧ ∃ i : Nat, i ≤ k ∧ p.1 = x1 - sx * i := by
  obtain ⟨px, py⟩ := p
  induction k with
  | zero =>
    rw [show x1 - sx * ((0 : Nat) : Int) = x1 by simp, lineLoop_end]
    simp [and_comm]
  | succ k ih =>
    rw [lineLoop_stepX (column_ne hsx x1 k) (by omega), if_neg (by omega), column_add, add_zero, List.mem_cons, ih,
      Prod.mk.injEq]
    constructor
    · rintro (⟨rfl, rfl⟩ | ⟨rfl, i, hi, rfl⟩)
      · exact ⟨rfl, k + 1, le_refl _, rfl⟩
      · exact ⟨rfl, i, by omega, rfl⟩
    · rintro ⟨rfl, i, hi, rfl⟩
      by_cases hfirst : i = k + 1
      · exact .inl ⟨by rw [hfirst], rfl⟩
      · exact .inr ⟨rfl, i, by omega, rfl⟩

/-- R367 for a horizontal line: the run between its ends. -/
theorem mem_linePoints_row (x0 x1 y : Int) (p : Int × Int) :
    p ∈ linePoints x0 y x1 y ↔ p.2 = y ∧ min x0 x1 ≤ p.1 ∧ p.1 ≤ max x0 x1 := by
  by_cases hpoint : x0 = x1
  · subst hpoint
    rw [linePoints_self, List.mem_singleton, Prod.ext_iff]
    omega
  · have hloop := mem_lineLoop_row (x1 := x1) (y := y) (D := (x1 - x0).natAbs) (sy := if y < y then 1 else -1)
      (direction_ne_zero x0 x1) (by omega) (x1 - x0).natAbs p
    rw [direction_mul_natAbs, sub_sub_cancel] at hloop
    have hrow : ((y - y).natAbs : Int) = 0 := by simp
    rw [linePoints_eq, max_eq_left (by omega)]
    simp only [hrow, neg_zero, add_zero]
    rw [hloop]
    refine and_congr_right fun _ => ?_
    constructor
    · rintro ⟨i, hi, hp⟩
      split at hp <;> omega
    · intro hp
      refine ⟨(x1 - p.1).natAbs, by omega, ?_⟩
      split <;> omega

/-- Settles O29: a line of more rows than columns is one of more columns than rows with the coordinates exchanged. -/
theorem linePath : Obligations.LinePath := by
  intro x0 y0 x1 y1
  have hends : (linePoints x0 y0 x1 y1).length = max (x1 - x0).natAbs (y1 - y0).natAbs + 1 ∧
      (linePoints x0 y0 x1 y1).getLast? = some (x1, y1) := by
    rcases le_total (y1 - y0).natAbs (x1 - x0).natAbs with hcolumns | hrows
    · rw [max_eq_left hcolumns]
      exact linePoints_columns hcolumns
    · obtain ⟨hlength, hlast⟩ := linePoints_columns hrows
      rw [max_eq_right hrows, linePoints_swap, List.length_map, List.getLast?_map, hlength, hlast]
      exact ⟨rfl, rfl⟩
  refine ⟨hends.1, lineLoop_head, hends.2, ?_, ?_⟩
  · rintro rfl p
    exact mem_linePoints_row x0 x1 y0 p
  · rintro rfl p
    rw [linePoints_swap, List.mem_map_swap]
    exact mem_linePoints_row y0 y1 x0 p.swap

/-! ## The command -/

theorem State.lineEnds_supplied (s : State) (x0 y0 a b : Word) :
    s.lineEnds x0 y0 (some a) (some b) = ((x0.toInt, y0.toInt), (a.toInt, b.toInt)) := rfl

theorem State.lineEnds_missing (s : State) (x0 y0 : Word) {x1 y1 : Operand} (h : x1 = none ∨ y1 = none) :
    s.lineEnds x0 y0 x1 y1 = ((s.lineX, s.lineY), (x0.toInt, y0.toInt)) := by
  unfold State.lineEnds
  split
  · simp at h
  · rfl

/-- The pixels a line between two points of the world plots. -/
def State.linePixels (s : State) (ends : (Int × Int) × (Int × Int)) : List (Int × Int) :=
  linePoints (ends.1.1 - s.cameraX) (ends.1.2 - s.cameraY) (ends.2.1 - s.cameraX) (ends.2.2 - s.cameraY)

/-- The state after a line between two points of the world (R365). -/
def State.afterLine (s : State) (c : Operand) (ends : (Int × Int) × (Int × Int)) : State :=
  ((s.colorStep c).plotAll (s.linePixels ends)).recordLineEnd ends.2.1 ends.2.2

theorem exec_line (x0 y0 : Word) (x1 y1 c : Operand) (s : State) : exec (.line (some x0) (some y0) x1 y1 c) s =
    .next (s.afterLine c (s.lineEnds x0 y0 x1 y1)).noResult := rfl

@[simp] theorem State.lineX_noResult (s : State) : s.noResult.lineX = s.lineX := rfl
@[simp] theorem State.lineY_noResult (s : State) : s.noResult.lineY = s.lineY := rfl

section
variable {s : State} (hw : s.mem.wf = true) (hl : s.cfg.layout.ok = true)
include hw hl

theorem State.lineX_recordLineEnd (x y : Int) : (s.recordLineEnd x y).lineX = (BitVec.ofInt 16 x).toInt := by
  have hsecond : WritesOnly (s.cfg.layout.Owns .lineY) (s.poke16 s.cfg.layout.lineX (BitVec.ofInt 16 x))
      (s.recordLineEnd x y) := State.poke16_writes _ _ _
  have hw' := (s.poke16_writes s.cfg.layout.lineX (BitVec.ofInt 16 x)).wf hw
  have hkept := hsecond.peek16_field (f := .lineX) hw' hl rfl nofun
  rw [State.lineX, (s.recordLineEnd_writes x y).cfg]
  exact congrArg BitVec.toInt (hkept.trans (s.peek16_poke16_field hw hl (f := .lineX) rfl _))

theorem State.lineY_recordLineEnd (x y : Int) : (s.recordLineEnd x y).lineY = (BitVec.ofInt 16 y).toInt := by
  have hw' := (s.poke16_writes s.cfg.layout.lineX (BitVec.ofInt 16 x)).wf hw
  rw [State.lineY, (s.recordLineEnd_writes x y).cfg]
  exact congrArg BitVec.toInt (State.peek16_poke16_field hw' hl (f := .lineY) rfl _)

/-- What a line between two points of the world does. -/
theorem State.afterLine_draws (c : Operand) (ends : (Int × Int) × (Int × Int)) :
    PenAfter s c (s.afterLine c ends) ∧
    DrawsShape s c (fun x y => (x, y) ∈ s.linePixels ends) (s.afterLine c ends) ∧
    (s.afterLine c ends).lineX = (BitVec.ofInt 16 ends.2.1).toInt ∧
    (s.afterLine c ends).lineY = (BitVec.ofInt 16 ends.2.2).toInt := by
  have hplotted := s.colorStep_plotAll_writes c (s.linePixels ends)
  have hw' : ((s.colorStep c).plotAll (s.linePixels ends)).mem.wf = true := hplotted.wf hw
  have hl' : ((s.colorStep c).plotAll (s.linePixels ends)).cfg.layout.ok = true := by rw [hplotted.cfg, hl]
  have hrecord := State.recordLineEnd_writes ((s.colorStep c).plotAll (s.linePixels ends)) ends.2.1 ends.2.2
  have hpen := penAfter_plotAll hw hl (c := c) (s.linePixels ends)
  have hdraws := drawsShape_plotAll hw hl (c := c) (l := s.linePixels ends) fun _ _ _ => Iff.rfl
  refine ⟨hpen.writes hrecord hw' ?_, hdraws.writes hrecord hw' ?_, State.lineX_recordLineEnd hw' hl' _ _,
    State.lineY_recordLineEnd hw' hl' _ _⟩
  · rintro (hx | hy)
    · exact absurd (Layout.owns_unique hl' (f := .lineX) hx (Layout.owns_addr _ .pen)) nofun
    · exact absurd (Layout.owns_unique hl' (f := .lineY) hy (Layout.owns_addr _ .pen)) nofun
  · rintro a (hx | hy)
    · exact not_inScreen_of_owns hl' (f := .lineX) hx
    · exact not_inScreen_of_owns hl' (f := .lineY) hy

end

/-- Settles O30: either form is a line between its two ends. -/
theorem lineDraws : Obligations.LineDraws := by
  intro s x0 y0 x1 y1 c hw hl
  obtain ⟨hpen, hdraws, hx, hy⟩ := State.afterLine_draws hw hl c (s.lineEnds x0 y0 x1 y1)
  refine ⟨_, exec_line x0 y0 x1 y1 c s, hpen, ?_, fun hmiss => ?_⟩
  · rintro a b rfl rfl
    rw [State.lineX_noResult, State.lineY_noResult, hx, hy]
    rw [s.lineEnds_supplied] at hdraws ⊢
    exact ⟨hdraws.noResult, rfl, rfl⟩
  · rw [State.lineX_noResult, State.lineY_noResult, hx, hy]
    rw [s.lineEnds_missing x0 y0 hmiss] at hdraws ⊢
    exact ⟨hdraws.noResult, rfl, rfl⟩

/-- The hypotheses of `lineDraws` hold of the reset state and a line to its first point: the pixel below it stays
black. -/
theorem exec_line_reset : ∃ t,
    exec (.line (some 3) (some 0) none none (some 8)) State.reset = .next t ∧ t.lineX = 3 ∧
    t.pget screenBase 1 1 = 0 := by
  obtain ⟨t, hexec, -, -, hcontinued⟩ := lineDraws State.reset 3 0 none none (some 8) rfl rfl
  obtain ⟨hdraws, hx, -⟩ := hcontinued (.inl rfl)
  exact ⟨t, hexec, hx, ((hdraws 1 1 rfl).2 (by decide)).trans rfl⟩

end Sys2Proof.Machine
end

section
/-! SUPPORT. The circles (47_raster_primitives.md R373 to R375): the midpoint steps, their reflections and their
spans. -/

namespace Sys2Proof.Machine

/-! ## The steps -/

section
variable {n : Nat} {px py f : Int}

theorem circleLoop_succ : circleLoop (n + 1) px py f =
    if px ≤ py then
      (px, py) ::
        (if f < 0 then circleLoop n (px + 1) py (f + 2 * px + 3)
         else circleLoop n (px + 1) (py - 1) (f + 2 * (px - py) + 5))
    else [] := rfl

theorem circleLoop_done (h : py < px) : circleLoop n px py f = [] := by
  cases n with
  | zero => rfl
  | succ n => rw [circleLoop_succ, if_neg (by omega)]

theorem circleLoop_step (h : px ≤ py) : circleLoop (n + 1) px py f = (px, py) ::
    if f < 0 then circleLoop n (px + 1) py (f + 2 * px + 3)
    else circleLoop n (px + 1) (py - 1) (f + 2 * (px - py) + 5) := if_pos h

end

/-- The loop ends by its own test: px passes py after at most py - px + 1 iterations. -/
theorem circleLoop_eq_of_bound {n m : Nat} {px py : Int} (f : Int) (hn : py - px < n) (hm : py - px < m) :
    circleLoop n px py f = circleLoop m px py f := by
  induction n generalizing m px py f with
  | zero => rw [circleLoop_done (by omega), circleLoop_done (by omega)]
  | succ n ih =>
    by_cases h : px ≤ py
    · obtain ⟨m, rfl⟩ : ∃ k, m = k + 1 := ⟨m - 1, by omega⟩
      rw [circleLoop_step h, circleLoop_step h, ih (m := m) _ (by omega) (by omega),
        ih (m := m) _ (by omega) (by omega)]
    · rw [circleLoop_done (by omega), circleLoop_done (by omega)]

/-- Every step lies in the octant 0 ≤ px ≤ py. -/
theorem octant_of_mem_circleLoop {n : Nat} {px py f : Int} (hpx : 0 ≤ px) {q : Int × Int}
    (hq : q ∈ circleLoop n px py f) : 0 ≤ q.1 ∧ q.1 ≤ q.2 := by
  induction n generalizing px py f with
  | zero => exact absurd hq List.not_mem_nil
  | succ n ih =>
    by_cases h : px ≤ py
    · rw [circleLoop_step h, List.mem_cons] at hq
      rcases hq with rfl | hrest
      · exact ⟨hpx, h⟩
      · split at hrest
        · exact ih (by omega) hrest
        · exact ih (by omega) hrest
    · rw [circleLoop_done (by omega)] at hq
      exact absurd hq List.not_mem_nil

theorem octant_of_mem_circleSteps {r : Int} {q : Int × Int} (hq : q ∈ circleSteps r) : 0 ≤ q.1 ∧ q.1 ≤ q.2 :=
  octant_of_mem_circleLoop (le_refl 0) hq

/-! ## The shapes -/

/-- Is (x, y) a reflection of a step of the circle about (X, Y)? -/
def OnCircle (X Y r x y : Int) : Prop := ∃ q ∈ circleSteps r,
  (((x - X).natAbs : Int) = q.1 ∧ ((y - Y).natAbs : Int) = q.2) ∨
  (((x - X).natAbs : Int) = q.2 ∧ ((y - Y).natAbs : Int) = q.1)

/-- Is (x, y) in a span of a step of the circle about (X, Y)? -/
def InCircle (X Y r x y : Int) : Prop := ∃ q ∈ circleSteps r,
  (((x - X).natAbs : Int) ≤ q.1 ∧ ((y - Y).natAbs : Int) = q.2) ∨
  (((x - X).natAbs : Int) ≤ q.2 ∧ ((y - Y).natAbs : Int) = q.1)

/-- The outline plots the eight reflections of each step. -/
theorem mem_circlePoints {X Y r x y : Int} : (x, y) ∈ circlePoints X Y r ↔ OnCircle X Y r x y := by
  simp only [circlePoints, List.mem_flatMap, List.mem_cons, List.not_mem_nil, or_false, Prod.mk.injEq]
  refine exists_congr fun q => and_congr_right fun hq => ?_
  obtain ⟨hnonneg, hle⟩ := octant_of_mem_circleSteps hq
  omega

/-- The filled circle plots the four spans of each step. -/
theorem mem_circleFillPoints {X Y r x y : Int} (hon : onSheet x y = true) : (x, y) ∈ circleFillPoints X Y r ↔
    InCircle X Y r x y := by
  simp only [circleFillPoints, List.mem_flatMap, List.mem_append, mem_rowPoints hon]
  refine exists_congr fun q => and_congr_right fun hq => ?_
  obtain ⟨hnonneg, hle⟩ := octant_of_mem_circleSteps hq
  omega

/-! ## The commands -/

/-- A circle command plots its points, none for a negative radius. -/
theorem circleCmd_eq (points : Int → Int → Int → List (Int × Int)) (x y : Word) (r c : Operand) (s : State) :
    circleCmd points (some x) (some y) r c s = ((s.colorStep c).plotAll
      (if optInt r 4 < 0 then [] else points (x.toInt - s.cameraX) (y.toInt - s.cameraY) (optInt r 4))).noResult := by
  unfold circleCmd
  dsimp only
  split
  · rfl
  · rfl

/-- A circle command draws the on-screen points of its shape. -/
theorem exists_draws_circle {i : Instr} {s : State} {points : Int → Int → Int → List (Int × Int)}
    (shape : Int → Int → Int → Int → Int → Prop) {x y : Word} {r c : Operand} {R : Int} (hR : optInt r 4 = R)
    (hw : s.mem.wf = true) (hl : s.cfg.layout.ok = true)
    (hexec : exec i s = .next (circleCmd points (some x) (some y) r c s))
    (hpoints : ∀ X Y R x y, onSheet x y = true → ((x, y) ∈ points X Y R ↔ shape X Y R x y)) :
    ∃ t, exec i s = .next t ∧ PenAfter s c t ∧
      DrawsShape s c (fun px py => 0 ≤ R ∧ shape (x.toInt - s.cameraX) (y.toInt - s.cameraY) R px py) t := by
  subst hR
  refine exists_draws hw hl (hexec.trans (congrArg _ (circleCmd_eq points x y r c s))) fun px py hon => ?_
  by_cases hneg : optInt r 4 < 0
  · simp [hneg]
  · rw [if_neg hneg, hpoints _ _ _ _ _ hon]
    simp [Int.not_lt.mp hneg]

/-- Settles O32: reflections, spans, and the bound of the steps' loop. -/
theorem circlesDraw : Obligations.CirclesDraw := by
  intro s x y r c hw hl X Y R
  have hR : optInt r 4 = R := by
    cases r with
    | none => rfl
    | some w => rfl
  refine ⟨?_, ?_, fun n hn => circleLoop_eq_of_bound _ (by omega) (by omega)⟩
  · exact exists_draws_circle OnCircle (x := x) (y := y) hR hw hl rfl fun _ _ _ _ _ _ => mem_circlePoints
  · exact exists_draws_circle InCircle (x := x) (y := y) hR hw hl rfl fun _ _ _ _ _ hon => mem_circleFillPoints hon

/-- The hypotheses of `circlesDraw` hold of the reset state; a circle of the default radius leaves its centre black. -/
theorem exec_circle_reset : ∃ t,
    exec (.circle (some 9) (some 9) none (some 8)) State.reset = .next t ∧ t.pget screenBase 9 9 = 0 := by
  obtain ⟨t, hexec, -, hdraws⟩ := (circlesDraw State.reset 9 9 none (some 8) rfl rfl).1
  exact ⟨t, hexec, ((hdraws 9 9 rfl).2 (by decide)).trans rfl⟩

end Sys2Proof.Machine
end

section
/-! SUPPORT. The ellipses (47_raster_primitives.md R377 to R379): that the two loops of the rows end by their own tests,
and the two commands. -/

namespace Sys2Proof.Machine

/-! ## One iteration -/

/-- The y step of R377. -/
def EllipseVars.stepY (a8 : Int) (v : EllipseVars) : EllipseVars :=
  { v with y0 := v.y0 + 1, y1 := v.y1 - 1, dy := v.dy + a8, err := v.err + (v.dy + a8) }

/-- The x step of R377. -/
def EllipseVars.stepX (b8 : Int) (v : EllipseVars) : EllipseVars :=
  { v with x0 := v.x0 + 1, x1 := v.x1 - 1, dx := v.dx + b8, err := v.err + (v.dx + b8) }

/-- An iteration steps in x, perhaps after a step in y, or in y alone. -/
theorem ellipseStep_cases (a8 b8 : Int) (v : EllipseVars) :
    ellipseStep a8 b8 v = v.stepX b8 ∨ ellipseStep a8 b8 v = (v.stepY a8).stepX b8 ∨
    (ellipseStep a8 b8 v = v.stepY a8 ∧ 2 * v.err < v.dx ∧ 2 * (v.stepY a8).err ≤ (v.stepY a8).dy) := by
  unfold ellipseStep
  by_cases hy : 2 * v.err ≤ v.dy
  · simp only [hy, if_true]
    by_cases hx : v.dx ≤ 2 * v.err ∨ v.dy + a8 < 2 * (v.err + (v.dy + a8))
    · exact .inr (.inl (if_pos hx))
    · obtain ⟨hdx, hdy⟩ := not_or.mp hx
      exact .inr (.inr ⟨if_neg hx, by omega, Int.not_lt.mp hdy⟩)
  · simp only [hy, if_false]
    exact .inl (if_pos (.inr (by omega)))

/-! ## The error of the loop -/

/-- The variables of R377 after `i` steps in x and `j` in y, for a bounding rectangle of width a + 1 and height
b + 1. -/
structure EllipseError (a b i j : Int) (v : EllipseVars) : Prop where
  nonneg : 0 ≤ j
  width : v.x1 - v.x0 = a - 2 * i
  height : v.y0 - v.y1 = b % 2 + 2 * j
  dx_eq : v.dx = 4 * b * b * (2 * i + 1 - a)
  dy_eq : v.dy = 4 * a * a * (b % 2 + 1 + 2 * j)
  err_eq : v.err = b % 2 * a * a + 4 * b * b * ((i + 1) * (i + 1 - a)) + 4 * a * a * ((j + 1) * (j + 1 + b % 2))

theorem ellipseError_start (x0 y0 x1 y1 b : Int) :
    EllipseError (x1 - x0).natAbs b 0 0 (ellipseStart x0 y0 x1 y1 (x1 - x0).natAbs b) := by
  refine ⟨le_refl 0, ?_, ?_, ?_, ?_, ?_⟩
  · simp only [ellipseStart]
    split <;> omega
  · simp only [ellipseStart]
    ring
  · simp only [ellipseStart]
    ring
  · simp only [ellipseStart]
    ring
  · simp only [ellipseStart]
    ring

section
variable {a b i j : Int} {v : EllipseVars}

theorem EllipseError.stepX (h : EllipseError a b i j v) : EllipseError a b (i + 1) j (v.stepX (8 * b * b)) where
  nonneg := h.nonneg
  width := by have := h.width; simp only [EllipseVars.stepX]; omega
  height := h.height
  dx_eq := by simp only [EllipseVars.stepX, h.dx_eq]; ring
  dy_eq := h.dy_eq
  err_eq := by simp only [EllipseVars.stepX, h.err_eq, h.dx_eq]; ring

theorem EllipseError.stepY (h : EllipseError a b i j v) : EllipseError a b i (j + 1) (v.stepY (8 * a * a)) where
  nonneg := by have := h.nonneg; omega
  width := h.width
  height := by have := h.height; simp only [EllipseVars.stepY]; omega
  dx_eq := h.dx_eq
  dy_eq := by simp only [EllipseVars.stepY, h.dy_eq]; ring
  err_eq := by simp only [EllipseVars.stepY, h.err_eq, h.dy_eq]; ring

/-- The error as a sum of squares. -/
theorem EllipseError.err_eq_squares (h : EllipseError a b i j v) :
    v.err = b ^ 2 * (2 * (i + 1) - a) ^ 2 + a ^ 2 * ((2 * (j + 1) + b % 2) ^ 2 - b ^ 2) := by
  have hbit : (b % 2) ^ 2 = b % 2 := by
    rcases Int.emod_two_eq_zero_or_one b with hb | hb
    · rw [hb]; rfl
    · rw [hb]; rfl
  rw [h.err_eq]
  linear_combination (-a ^ 2) * hbit

/-- A step in y alone stays inside the rectangle: at its edge the error is no longer negative. -/
theorem EllipseError.lt_of_stepY_alone (h : EllipseError a b i j v) (ha : 0 ≤ a) (hb : 0 ≤ b)
    (hdx : 2 * v.err < v.dx) (hdy : 2 * (v.stepY (8 * a * a)).err ≤ (v.stepY (8 * a * a)).dy) :
    2 * j + 2 < b := by
  have hbit : 0 ≤ b % 2 := Int.emod_nonneg b (by decide)
  have hj := h.nonneg
  have hsquares := h.err_eq_squares
  by_contra hedge
  have hrow : 0 ≤ (2 * (j + 1) + b % 2) ^ 2 - b ^ 2 := by nlinarith
  have hrest : 0 ≤ a ^ 2 * ((2 * (j + 1) + b % 2) ^ 2 - b ^ 2) := by positivity
  have herr : 0 ≤ v.err := by rw [hsquares]; positivity
  simp only [EllipseVars.stepY, h.dy_eq] at hdy
  rcases ha.eq_or_lt with rfl | hpos
  · rw [h.dx_eq] at hdx
    nlinarith [sq_nonneg (b * (i + 1)), sq_nonneg b]
  · have hup : 0 < 4 * a * a * (b % 2 + 1 + 2 * j) := by positivity
    nlinarith

end

/-! ## The loops -/

/-- An iteration emits two rows and goes on until the columns have passed each other. -/
theorem ellipseLoop_succ (a8 b8 : Int) (n : Nat) (v : EllipseVars) : ellipseLoop a8 b8 (n + 1) v =
    ((v.x0, v.x1, v.y0) :: (v.x0, v.x1, v.y1) ::
      (if (ellipseStep a8 b8 v).x1 < (ellipseStep a8 b8 v).x0 then ([], ellipseStep a8 b8 v)
        else ellipseLoop a8 b8 n (ellipseStep a8 b8 v)).1,
      (if (ellipseStep a8 b8 v).x1 < (ellipseStep a8 b8 v).x0 then ([], ellipseStep a8 b8 v)
        else ellipseLoop a8 b8 n (ellipseStep a8 b8 v)).2) := rfl

/-- Every iteration has the loop's error again, with fewer columns or rows to go. -/
theorem EllipseError.step {a b i j : Int} {v : EllipseVars} (h : EllipseError a b i j v) (ha : 0 ≤ a) (hb : 0 ≤ b) :
    ∃ i' j', EllipseError a b i' j' (ellipseStep (8 * a * a) (8 * b * b) v) ∧
      a - 2 * i' + max 0 (b - 2 * j') < a - 2 * i + max 0 (b - 2 * j) := by
  rcases ellipseStep_cases (8 * a * a) (8 * b * b) v with hstep | hstep | ⟨hstep, hdx, hdy⟩
  · exact ⟨i + 1, j, hstep ▸ h.stepX, by omega⟩
  · exact ⟨i + 1, j + 1, hstep ▸ h.stepY.stepX, by omega⟩
  · have hinside := h.lt_of_stepY_alone ha hb hdx hdy
    exact ⟨i, j + 1, hstep ▸ h.stepY, by omega⟩

/-- The first loop ends by its own test. -/
theorem ellipseLoop_eq_of_bound {a b i j : Int} {v : EllipseVars} (h : EllipseError a b i j v) (ha : 0 ≤ a)
    (hb : 0 ≤ b) (hwidth : 2 * i ≤ a) {n m : Nat} (hn : a - 2 * i + max 0 (b - 2 * j) < n)
    (hm : a - 2 * i + max 0 (b - 2 * j) < m) :
    ellipseLoop (8 * a * a) (8 * b * b) n v = ellipseLoop (8 * a * a) (8 * b * b) m v := by
  induction n generalizing m v i j with
  | zero => omega
  | succ n ih =>
    obtain ⟨m, rfl⟩ : ∃ k, m = k + 1 := ⟨m - 1, by omega⟩
    obtain ⟨i', j', hnext, hless⟩ := h.step ha hb
    rw [ellipseLoop_succ, ellipseLoop_succ]
    by_cases hend : (ellipseStep (8 * a * a) (8 * b * b) v).x1 < (ellipseStep (8 * a * a) (8 * b * b) v).x0
    · rw [if_pos hend, if_pos hend]
    · have hgoes : 2 * i' ≤ a := by have := hnext.width; omega
      rw [if_neg hend, if_neg hend, ih hnext hgoes (m := m) (by omega) (by omega)]

/-- The first loop ends with its lower row not above its upper one. -/
theorem ellipseLoop_rows_le {a8 b8 : Int} (n : Nat) {v : EllipseVars} (h : v.y1 ≤ v.y0) :
    (ellipseLoop a8 b8 n v).2.y1 ≤ (ellipseLoop a8 b8 n v).2.y0 := by
  induction n generalizing v with
  | zero => exact h
  | succ n ih =>
    have hnext : (ellipseStep a8 b8 v).y1 ≤ (ellipseStep a8 b8 v).y0 := by
      rcases ellipseStep_cases a8 b8 v with hstep | hstep | ⟨hstep, -, -⟩
      · rw [hstep]; exact h
      · rw [hstep]; simp only [EllipseVars.stepX, EllipseVars.stepY]; omega
      · rw [hstep]; simp only [EllipseVars.stepY]; omega
    rw [ellipseLoop_succ]
    split
    · exact hnext
    · exact ih hnext

theorem ellipseTail_succ (b xl xr : Int) (n : Nat) (y0 y1 : Int) : ellipseTail b xl xr (n + 1) y0 y1 =
    if y0 - y1 ≤ b then (xl, xr, y0) :: (xl, xr, y1) :: ellipseTail b xl xr n (y0 + 1) (y1 - 1) else [] := rfl

theorem ellipseTail_done {b xl xr y0 y1 : Int} (h : b < y0 - y1) (n : Nat) : ellipseTail b xl xr n y0 y1 = [] := by
  cases n with
  | zero => rfl
  | succ n => rw [ellipseTail_succ, if_neg (by omega)]

/-- The closing loop ends by its own test. -/
theorem ellipseTail_eq_of_bound {b xl xr y0 y1 : Int} {n m : Nat} (hn : b - (y0 - y1) < n) (hm : b - (y0 - y1) < m) :
    ellipseTail b xl xr n y0 y1 = ellipseTail b xl xr m y0 y1 := by
  induction n generalizing m y0 y1 with
  | zero => rw [ellipseTail_done (by omega), ellipseTail_done (by omega)]
  | succ n ih =>
    by_cases h : y0 - y1 ≤ b
    · obtain ⟨m, rfl⟩ : ∃ k, m = k + 1 := ⟨m - 1, by omega⟩
      rw [ellipseTail_succ, ellipseTail_succ, if_pos h, if_pos h, ih (m := m) (by omega) (by omega)]
    · rw [ellipseTail_done (by omega), ellipseTail_done (by omega)]

/-- The rows do not depend on the bounds of their loops, once these are large enough. -/
theorem ellipseRowsIn_eq_of_bound {n m : Nat} {x0 y0 x1 y1 : Int}
    (hn : 2 * ((x1 - x0).natAbs + (y1 - y0).natAbs) + 8 ≤ n) (hm : (y1 - y0).natAbs + 1 ≤ m) :
    ellipseRowsIn n m x0 y0 x1 y1 = ellipseRows x0 y0 x1 y1 := by
  have hstart := ellipseError_start x0 y0 x1 y1 (y1 - y0).natAbs
  have hloop := ellipseLoop_eq_of_bound (n := n) (m := 2 * ((x1 - x0).natAbs + (y1 - y0).natAbs) + 8) hstart (by omega)
    (by omega) (by omega) (by omega) (by omega)
  have hrows := ellipseLoop_rows_le (a8 := 8 * (x1 - x0).natAbs * (x1 - x0).natAbs)
    (b8 := 8 * (y1 - y0).natAbs * (y1 - y0).natAbs) (2 * ((x1 - x0).natAbs + (y1 - y0).natAbs) + 8)
    (v := ellipseStart x0 y0 x1 y1 (x1 - x0).natAbs (y1 - y0).natAbs) (by have := hstart.height; omega)
  rw [ellipseRows, ellipseRowsIn, ellipseRowsIn, hloop]
  exact congrArg _ (ellipseTail_eq_of_bound (by omega) (by omega))

/-! ## The commands -/

theorem mem_ellipsePoints {x0 y0 x1 y1 x y : Int} : (x, y) ∈ ellipsePoints x0 y0 x1 y1 ↔
    ∃ q ∈ ellipseRows x0 y0 x1 y1, y = q.2.2 ∧ (x = q.1 ∨ x = q.2.1) := by
  simp only [ellipsePoints, List.mem_flatMap, List.mem_cons, List.not_mem_nil, or_false, Prod.mk.injEq]
  refine exists_congr fun q => and_congr_right fun _ => ?_
  tauto

theorem mem_ellipseFillPoints {x0 y0 x1 y1 x y : Int} (hon : onSheet x y = true) :
    (x, y) ∈ ellipseFillPoints x0 y0 x1 y1 ↔
      ∃ q ∈ ellipseRows x0 y0 x1 y1, y = q.2.2 ∧ q.1 ≤ x ∧ x ≤ q.2.1 := by
  simp only [ellipseFillPoints, List.mem_flatMap, mem_rowPoints hon]
  refine exists_congr fun q => and_congr_right fun _ => ?_
  tauto

/-- Settles O33: row ends, spans, and the bounds of the rows' loops. -/
theorem ellipsesDraw : Obligations.EllipsesDraw := by
  intro s x0 y0 x1 y1 c hw hl rows
  refine ⟨?_, ?_, fun n m hn hm => ellipseRowsIn_eq_of_bound ?_ ?_⟩
  · exact exists_draws hw hl rfl fun _ _ _ => mem_ellipsePoints
  · exact exists_draws hw hl rfl fun _ _ hon => mem_ellipseFillPoints hon
  · rwa [sub_sub_sub_cancel_right, sub_sub_sub_cancel_right]
  · rwa [sub_sub_sub_cancel_right]

/-- The hypotheses of `ellipsesDraw` hold of the reset state: a corner of the bounding rectangle stays black. -/
theorem exec_ellipse_reset : ∃ t,
    exec (.ellipse (some 2) (some 2) (some 8) (some 6) (some 8)) State.reset = .next t ∧ t.pget screenBase 2 2 = 0 := by
  obtain ⟨t, hexec, -, hdraws⟩ := (ellipsesDraw State.reset 2 2 8 6 (some 8) rfl rfl).1
  exact ⟨t, hexec, ((hdraws 2 2 rfl).2 (by decide)).trans rfl⟩

end Sys2Proof.Machine
end

section
/-! SUPPORT. The blitters (48_raster_blit_text.md R391 to R394, R397): when `blit_pixel` writes and what, that a pixel
of a blitted list depends on its own sheet position only, then `sprite` and `sprite_scaled`. -/

namespace Sys2Proof.Machine

/-! ## One pixel -/

/-- Does `blit_pixel` write the pixel: an opaque colour on the sheet, a pixel on screen and inside the clip
rectangle? -/
def State.blits (s : State) (x y u v : Int) : Bool :=
  onSheet u v && !s.transparent (s.pget gfxBase u v) && (onSheet x y && s.inClip x y)

/-- The nibble `blit_pixel` stores from a sheet position at a pixel that holds `old`. -/
def State.blitted (s : State) (u v : Int) (old : BitVec 4) : BitVec 4 := s.putColor (s.pget gfxBase u v) old

theorem State.blits_iff (s : State) (x y u v : Int) : s.blits x y u v = true ↔
    onSheet u v = true ∧ s.transparent (s.pget gfxBase u v) = false ∧ onSheet x y = true ∧ s.inClip x y = true := by
  simp only [State.blits, Bool.and_eq_true, Bool.not_eq_true', and_assoc]

theorem State.blitPixel_eq (s : State) (x y u v : Int) : s.blitPixel x y u v =
    if s.blits x y u v then s.pset screenBase x y (s.blitted u v (s.pget screenBase x y)) else s := by
  unfold State.blitPixel State.blits State.blitted State.pixelPut
  cases onSheet u v
  · simp
  · cases s.transparent (s.pget gfxBase u v) <;> simp

/-- A pixel read after one is blitted. -/
theorem State.pget_blitPixel {s : State} (hw : s.mem.wf = true) (x y u v x' y' : Int) :
    (s.blitPixel x y u v).pget screenBase x' y' =
      if s.blits x y u v = true ∧ x' = x ∧ y' = y then s.blitted u v (s.pget screenBase x y)
      else s.pget screenBase x' y' := by
  rw [State.blitPixel_eq]
  by_cases h : s.blits x y u v = true
  · obtain ⟨-, -, hon, -⟩ := (s.blits_iff x y u v).mp h
    rw [if_pos h, State.pget_pset s hw _ (by decide)]
    simp only [hon, h]
  · rw [if_neg h, if_neg fun hh => h hh.1]

/-- Settles O36: the pixel is written exactly where `blits` holds, with the nibble `blitted`. -/
theorem blitPixelValue : Obligations.BlitPixelValue := by
  intro s x y u v hw hon
  dsimp only
  have hread := State.pget_blitPixel hw x y u v x y
  rw [← onSheet_iff, ← State.inClip_iff]
  refine ⟨fun hskipped => ?_, fun hsheet hopaque hclip => ?_⟩
  · have hnot : ¬ s.blits x y u v = true := by
      rw [s.blits_iff]
      rintro ⟨hsheet, hopaque, -, hclip⟩
      rcases hskipped with h | h | h
      · exact h hsheet
      · exact Bool.false_ne_true (hopaque.symm.trans h)
      · exact h hclip
    rw [hread, if_neg fun h => hnot h.1]
  · have hblits : s.blits x y u v = true := (s.blits_iff x y u v).mpr ⟨hsheet, hopaque, hon, hclip⟩
    rw [hread, if_pos ⟨hblits, rfl, rfl⟩]
    exact ⟨fun hmask => if_pos hmask, fun hmask => if_neg hmask⟩

/-- The hypotheses of `blitPixelValue` hold of the reset state: a black sheet pixel is transparent. -/
theorem blitPixel_reset : (State.reset.blitPixel 5 7 0 0).pget screenBase 5 7 = 0 :=
  ((blitPixelValue State.reset 5 7 0 0 rfl rfl).1 (.inr (.inl rfl))).trans rfl

/-! ## What blitting leaves of the state it reads -/

section
variable {s t : State} (h : WritesOnly inScreen s t) (hw : s.mem.wf = true)
include h hw

/-- Drawing leaves the sprite sheet. -/
theorem WritesOnly.pget_gfx_of_screen (u v : Int) : t.pget gfxBase u v = s.pget gfxBase u v := by
  by_cases hon : onSheet u v = true
  · have hbelow : ¬ inScreen (pixelAddr gfxBase u v) := fun hscreen => by
      obtain ⟨-, hhigh⟩ := pixelAddr_range (base := gfxBase) hon
      exact absurd hscreen.1 (by unfold gfxBase at hhigh ⊢; omega)
    rw [State.pget_on _ _ hon, State.pget_on _ _ hon, h.peek hw hbelow]
  · rw [State.pget_off _ _ hon, State.pget_off _ _ hon]

variable (hl : s.cfg.layout.ok = true)
include hl

theorem WritesOnly.drawPal_of_screen (k : BitVec 4) : t.drawPal k = s.drawPal k :=
  h.drawPal hw (fun _ hpal => not_inScreen_of_owns hl hpal) k

theorem WritesOnly.inClip_of_screen (x y : Int) : t.inClip x y = s.inClip x y :=
  (h.mono fun _ => .inl).inClip_of_penOrScreen hw hl x y

theorem WritesOnly.bitmask_of_screen : t.bitmask = s.bitmask :=
  h.byteView hw (v := Layout.bitmask) fun hscreen =>
    absurd hscreen.1 (by have := Layout.bitmask_bounds hl; omega)

theorem WritesOnly.blits_of_screen (x y u v : Int) : t.blits x y u v = s.blits x y u v := by
  unfold State.blits State.transparent
  rw [h.pget_gfx_of_screen hw, h.drawPal_of_screen hw hl, h.inClip_of_screen hw hl]

theorem WritesOnly.blitted_of_screen (u v : Int) (old : BitVec 4) : t.blitted u v old = s.blitted u v old := by
  unfold State.blitted State.putColor
  rw [h.pget_gfx_of_screen hw, h.drawPal_of_screen hw hl, h.bitmask_of_screen hw hl]

end

/-! ## Lists of pixels -/

/-- Blitting a pixel twice from one sheet position is blitting it once. -/
theorem State.blitted_idem (s : State) (u v : Int) (old : BitVec 4) :
    s.blitted u v (s.blitted u v old) = s.blitted u v old := maskColor_idem _ _ _

/-- A pixel read after a list is blitted in which it has one sheet position at most: blitted once if the list has
it. -/
theorem State.pget_blitAll {s : State} (hw : s.mem.wf = true) (hl : s.cfg.layout.ok = true)
    {l : List (Int × Int × Int × Int)} {x y u v : Int} (hsource : ∀ p q, (x, y, p, q) ∈ l → p = u ∧ q = v) :
    (s.blitAll l).pget screenBase x y =
      if (x, y, u, v) ∈ l ∧ s.blits x y u v = true then s.blitted u v (s.pget screenBase x y)
      else s.pget screenBase x y := by
  induction l generalizing s with
  | nil => simp [State.blitAll]
  | cons c l ih =>
    obtain ⟨a, b, p, q⟩ := c
    have hfirst : WritesOnly inScreen s (s.blitPixel a b p q) := s.blitPixel_screen a b p q
    have hrest := ih (s := s.blitPixel a b p q) (hfirst.wf hw) (hfirst.cfg ▸ hl)
      fun p q hmem => hsource p q (List.mem_cons_of_mem _ hmem)
    rw [hfirst.blits_of_screen hw hl, hfirst.blitted_of_screen hw hl, State.pget_blitPixel hw] at hrest
    refine hrest.trans ?_
    by_cases hhead : x = a ∧ y = b
    · obtain ⟨rfl, rfl⟩ := hhead
      obtain ⟨rfl, rfl⟩ := hsource p q List.mem_cons_self
      by_cases hblits : s.blits x y p q = true
      · simp [hblits, State.blitted_idem]
      · simp [hblits]
    · have hne : ¬ (x, y, u, v) = (a, b, p, q) := fun h => hhead ⟨congrArg (·.1) h, congrArg (·.2.1) h⟩
      simp [hhead, hne]

/-- A list of blits fills the shape whose on-screen points it has, each with its own sheet position. -/
theorem blitsShape_blitAll {s : State} (hw : s.mem.wf = true) (hl : s.cfg.layout.ok = true)
    {l : List (Int × Int × Int × Int)} {shape : Int → Int → Prop} {u v : Int → Int → Int}
    (hshape : ∀ x y, onSheet x y = true →
      ∀ p q, (x, y, p, q) ∈ l ↔ shape x y ∧ p = u x y ∧ q = v x y) :
    BlitsShape s shape u v (s.blitAll l) := by
  intro x y hon
  have hread := State.pget_blitAll hw hl fun p q hmem => ((hshape x y hon p q).mp hmem).2
  refine ⟨fun hin => ?_, fun hout => ?_⟩
  · have hmem := (hshape x y hon (u x y) (v x y)).mpr ⟨hin, rfl, rfl⟩
    rw [hread, State.pget_blitPixel hw]
    simp [hmem]
  · have hmem := mt (hshape x y hon (u x y) (v x y)).mp fun h => hout h.1
    rw [hread, if_neg fun h => hmem h.1]

theorem BlitsShape.noResult {s t : State} {shape : Int → Int → Prop} {u v : Int → Int → Int}
    (h : BlitsShape s shape u v t) : BlitsShape s shape u v t.noResult := h

/-- The on-screen points of a blitted rectangle. -/
theorem mem_blitPoints {X Y w h : Int} {u v : Int → Int} {x y : Int} (hon : onSheet x y = true) (p q : Int) :
    (x, y, p, q) ∈ blitPoints X Y w h u v ↔
      (X ≤ x ∧ x < X + w ∧ Y ≤ y ∧ y < Y + h) ∧ p = u (x - X) ∧ q = v (y - Y) := by
  rw [onSheet_iff] at hon
  simp only [blitPoints, List.mem_flatMap, List.mem_map, mem_screenRange, Prod.mk.injEq]
  constructor
  · rintro ⟨y', hy, x', hx, rfl, rfl, rfl, rfl⟩
    exact ⟨by omega, rfl, rfl⟩
  · rintro ⟨hin, rfl, rfl⟩
    exact ⟨y, by omega, x, by omega, rfl, rfl, rfl, rfl⟩

/-- A blitted rectangle: each pixel from the sheet column of its column and the sheet row of its row. -/
theorem blitsShape_blitPoints {s : State} (hw : s.mem.wf = true) (hl : s.cfg.layout.ok = true) (X Y w h : Int)
    (u v : Int → Int) : BlitsShape s (fun x y => X ≤ x ∧ x < X + w ∧ Y ≤ y ∧ y < Y + h) (fun x _ => u (x - X))
      (fun _ y => v (y - Y)) (s.blitAll (blitPoints X Y w h u v)) :=
  blitsShape_blitAll hw hl fun _ _ hon => mem_blitPoints hon

/-! ## Flips -/

theorem optFlag_iff (o : Operand) : optFlag o = true ↔ ∃ v, o = some v ∧ v ≠ 0 := by
  cases o with
  | none => simp [optFlag]
  | some w => simp [optFlag]

/-- A source offset is the mirrored one exactly under the flip. -/
theorem source_cases {flip : Bool} {P : Prop} (hP : flip = true ↔ P) (base plain mirrored : Int) :
    base + (if flip then mirrored else plain) = base + plain ∧ ¬ P ∨
      base + (if flip then mirrored else plain) = base + mirrored ∧ P := by
  by_cases h : flip = true
  · exact .inr ⟨by rw [if_pos h], hP.mp h⟩
  · exact .inl ⟨by rw [if_neg h], mt hP.mpr h⟩

/-! ## Sprites -/

theorem exec_sprite (n x y : Word) (w h fx fy : Operand) (s : State) :
    exec (.sprite (some n) (some x) (some y) w h fx fy) s =
      .next (s.drawSprite n.toInt x.toInt y.toInt (optInt w 1) (optInt h 1) (optFlag fx) (optFlag fy)).noResult := rfl

section
variable (s : State) {n w h : Int} (x y : Int) (fx fy : Bool)

theorem State.drawSprite_of_empty (hempty : n < 0 ∨ 255 < n ∨ w ≤ 0 ∨ h ≤ 0) :
    s.drawSprite n x y w h fx fy = s := if_pos hempty

theorem State.drawSprite_of_drawn (hdrawn : ¬ (n < 0 ∨ 255 < n ∨ w ≤ 0 ∨ h ≤ 0)) :
    s.drawSprite n x y w h fx fy = s.blitAll (blitPoints (x - s.cameraX) (y - s.cameraY) (8 * w) (8 * h)
      (fun i => n % 16 * 8 + if fx then 8 * w - 1 - i else i)
      (fun j => n / 16 * 8 + if fy then 8 * h - 1 - j else j)) := if_neg hdrawn

end

/-- Settles O34: a sprite is a blitted rectangle. -/
theorem spriteBlits : Obligations.SpriteBlits := by
  intro s n x y w h fx fy hw hl W H X Y flipX flipY
  have hW : W = 8 * optInt w 1 := rfl
  have hH : H = 8 * optInt h 1 := rfl
  refine ⟨_, exec_sprite n x y w h fx fy s, fun hempty => ?_, fun hlow hhigh hwide htall => ?_⟩
  · rw [State.drawSprite_of_empty s _ _ _ _ (by omega)]
    rfl
  · rw [State.drawSprite_of_drawn s _ _ _ _ (by omega), ← hW, ← hH]
    exact ⟨_, _, fun _ _ => source_cases (optFlag_iff fx) _ _ _, fun _ _ => source_cases (optFlag_iff fy) _ _ _,
      (blitsShape_blitPoints hw hl X Y W H _ _).noResult⟩

/-- The hypotheses of `spriteBlits` hold of the reset state and of a flipped sprite: the pixel right of it stays
black. -/
theorem exec_sprite_reset : ∃ t,
    exec (.sprite (some 255) (some 8) (some 0) none none (some 1) none) State.reset = .next t ∧
      t.pget screenBase 16 0 = 0 := by
  obtain ⟨t, hexec, -, hdrawn⟩ := spriteBlits State.reset 255 8 0 none none (some 1) none rfl rfl
  obtain ⟨u, v, -, -, hblits⟩ := hdrawn (by decide) (by decide) (by decide) (by decide)
  exact ⟨t, hexec, ((hblits 16 0 rfl).2 (by decide)).trans rfl⟩

/-! ## Scaled sprites -/

theorem exec_spriteScaled (sx sy sw sh dx dy : Word) (dw dh fx fy : Operand) (s : State) :
    exec (.spriteScaled (some sx) (some sy) (some sw) (some sh) (some dx) (some dy) dw dh fx fy) s =
      .next (s.drawScaled sx.toInt sy.toInt sw.toInt sh.toInt dx.toInt dy.toInt (optInt dw sw.toInt)
        (optInt dh sh.toInt) (optFlag fx) (optFlag fy)).noResult := rfl

section
variable (s : State) (sx sy : Int) {sw sh : Int} (dx dy : Int) {dw dh : Int} (fx fy : Bool)

theorem State.drawScaled_of_empty (hempty : sw ≤ 0 ∨ sh ≤ 0 ∨ dw = 0 ∨ dh = 0) :
    s.drawScaled sx sy sw sh dx dy dw dh fx fy = s := if_pos hempty

theorem State.drawScaled_of_drawn (hdrawn : ¬ (sw ≤ 0 ∨ sh ≤ 0 ∨ dw = 0 ∨ dh = 0)) :
    s.drawScaled sx sy sw sh dx dy dw dh fx fy =
      s.blitAll (blitPoints (dx - s.cameraX) (dy - s.cameraY) dw.natAbs dh.natAbs
        (fun i => sx + sampleAt sw dw.natAbs (fx != decide (dw < 0)) i)
        (fun j => sy + sampleAt sh dh.natAbs (fy != decide (dh < 0)) j)) := if_neg hdrawn

end

/-- A negative destination size toggles the flip (R397). -/
theorem toggled_flip_iff (o : Operand) (d : Int) :
    (optFlag o != decide (d < 0)) = true ↔ ((∃ v, o = some v ∧ v ≠ 0) ↔ ¬ d < 0) := by
  rw [← optFlag_iff]
  by_cases hneg : d < 0
  · simp [hneg]
  · simp [hneg]

/-- Settles O35: a scaled sprite is a blitted rectangle. -/
theorem scaledSpriteBlits : Obligations.ScaledSpriteBlits := by
  intro s sx sy sw sh dx dy dw dh fx fy hw hl DW DH X Y su sv flipX flipY
  have hDW : DW = optInt dw sw.toInt := rfl
  have hDH : DH = optInt dh sh.toInt := rfl
  refine ⟨_, exec_spriteScaled sx sy sw sh dx dy dw dh fx fy s, fun hempty => ?_, fun hsw hsh hwide htall => ?_⟩
  · rw [← hDW, ← hDH, State.drawScaled_of_empty s _ _ _ _ _ _ hempty]
    rfl
  · rw [State.drawScaled_of_drawn s _ _ _ _ _ _ (by omega), ← hDW, ← hDH]
    exact ⟨_, _, fun _ _ => source_cases (toggled_flip_iff fx DW) _ _ _,
      fun _ _ => source_cases (toggled_flip_iff fy DH) _ _ _,
      (blitsShape_blitPoints hw hl X Y DW.natAbs DH.natAbs _ _).noResult⟩

/-- The hypotheses of `scaledSpriteBlits` hold of the reset state and of a negative width: the rectangle keeps its left
edge, and the pixel left of it stays black. -/
theorem exec_spriteScaled_reset : ∃ t,
    exec (.spriteScaled (some 0) (some 0) (some 8) (some 8) (some 8) (some 8) (some 0xFFFFFFFC) none none none)
      State.reset = .next t ∧ t.pget screenBase 7 8 = 0 := by
  obtain ⟨t, hexec, -, hdrawn⟩ :=
    scaledSpriteBlits State.reset 0 0 8 8 8 8 (some 0xFFFFFFFC) none none none rfl rfl
  obtain ⟨u, v, -, -, hblits⟩ := hdrawn (by decide) (by decide) (by decide) (by decide)
  exact ⟨t, hexec, ((hblits 7 8 rfl).2 (by decide)).trans rfl⟩

end Sys2Proof.Machine
end

section
/-! SUPPORT. The tile map (10_state.md R25; 48_raster_blit_text.md R400, R402): its cells as one list of blits, since
drawing leaves the map, the flags and the camera, and the cell a screen pixel falls in. -/

namespace Sys2Proof.Machine

theorem State.blitAll_append (s : State) (l m : List (Int × Int × Int × Int)) :
    s.blitAll (l ++ m) = (s.blitAll l).blitAll m := by
  induction l generalizing s with
  | nil => rfl
  | cons c l ih => exact ih _

/-! ## One cell -/

/-- Is a tile drawn at map cell (a, b): a tile other than 0 that passes the layer filter (R402)? -/
def State.cellShown (s : State) (layers : Operand) (a b : Int) : Bool :=
  s.peek (cellAddr a b) != 0 && s.layerPasses (s.peek (cellAddr a b)) layers

/-- The blits of a map cell at a world position: the eight by eight pixels of its tile, if it is drawn. -/
def State.cellBlits (s : State) (layers : Operand) : Int × Int × Int × Int → List (Int × Int × Int × Int)
  | (a, b, wx, wy) =>
    if s.cellShown layers a b then
      blitPoints (wx - s.cameraX) (wy - s.cameraY) 8 8 (fun i => (s.peek (cellAddr a b)).toNat % 16 * 8 + i)
        (fun j => (s.peek (cellAddr a b)).toNat / 16 * 8 + j)
    else []

theorem State.drawCell_eq (s : State) (layers : Operand) (a b wx wy : Int) :
    s.drawCell a b wx wy layers = s.blitAll (s.cellBlits layers (a, b, wx, wy)) := by
  have hbyte := (s.peek (cellAddr a b)).isLt
  unfold State.drawCell State.cellBlits State.cellShown
  by_cases htile : s.peek (cellAddr a b) = 0
  · simp [htile, State.blitAll]
  · have hnonzero : s.peek (cellAddr a b) ≠ 0#8 := htile
    by_cases hpass : s.layerPasses (s.peek (cellAddr a b)) layers = true
    · have hsprite := s.drawSprite_of_drawn wx wy false false (n := (s.peek (cellAddr a b)).toNat) (w := 1) (h := 1)
        (by omega)
      simp [hnonzero, hpass, hsprite]
    · simp [hpass, State.blitAll]

/-! ## What drawing leaves of the state a cell reads -/

/-- Is (a, b) a cell of the map (R400)? -/
def OnMap (a b : Int) : Prop := 0 ≤ a ∧ a ≤ 127 ∧ 0 ≤ b ∧ b ≤ 63

/-- The map lies below the screen. -/
theorem not_inScreen_cellAddr {a b : Int} (h : OnMap a b) : ¬ inScreen (cellAddr a b) := by
  unfold OnMap at h
  unfold inScreen cellAddr mapBase gfxSharedBase
  split <;> omega

theorem not_inScreen_flags (tile : Byte) : ¬ inScreen (flagsBase + tile.toNat) := by
  have hbyte := tile.isLt
  unfold inScreen flagsBase
  omega

section
variable {s t : State} (h : WritesOnly inScreen s t) (hw : s.mem.wf = true)
include h hw

theorem WritesOnly.layerPasses_of_screen (tile : Byte) (layers : Operand) :
    t.layerPasses tile layers = s.layerPasses tile layers := by
  unfold State.layerPasses
  rw [h.peek hw (not_inScreen_flags tile), h.cfg]

theorem WritesOnly.cellShown_of_screen (layers : Operand) {a b : Int} (hmap : OnMap a b) :
    t.cellShown layers a b = s.cellShown layers a b := by
  rw [State.cellShown, State.cellShown, h.peek hw (not_inScreen_cellAddr hmap), h.layerPasses_of_screen hw]

theorem WritesOnly.cellBlits_of_screen (hl : s.cfg.layout.ok = true) (layers : Operand) {a b : Int} (hmap : OnMap a b)
    (wx wy : Int) : t.cellBlits layers (a, b, wx, wy) = s.cellBlits layers (a, b, wx, wy) := by
  have hdraws : WritesOnly (PenOrScreen s.cfg.layout) s t := h.mono fun _ => .inl
  rw [State.cellBlits, State.cellBlits, h.cellShown_of_screen hw layers hmap, h.peek hw (not_inScreen_cellAddr hmap),
    hdraws.cameraX_of_penOrScreen hw hl, hdraws.cameraY_of_penOrScreen hw hl]

end

/-- The cells of a map drawn in order are one list of blits, each read from the state before. -/
theorem State.drawCells_eq {s : State} (hw : s.mem.wf = true) (hl : s.cfg.layout.ok = true) (layers : Operand)
    {l : List (Int × Int × Int × Int)} (hmap : ∀ c ∈ l, OnMap c.1 c.2.1) :
    s.drawCells layers l = s.blitAll (l.flatMap (s.cellBlits layers)) := by
  induction l generalizing s with
  | nil => rfl
  | cons c l ih =>
    obtain ⟨a, b, wx, wy⟩ := c
    have hfirst : WritesOnly inScreen s (s.drawCell a b wx wy layers) := s.drawCell_screen a b wx wy layers
    have hrest : ∀ c ∈ l, OnMap c.1 c.2.1 := fun c hc => hmap c (List.mem_cons_of_mem _ hc)
    have hsame : l.flatMap ((s.drawCell a b wx wy layers).cellBlits layers) = l.flatMap (s.cellBlits layers) :=
      List.flatMap_congr fun c hc => hfirst.cellBlits_of_screen hw hl layers (hrest c hc) c.2.2.1 c.2.2.2
    calc s.drawCells layers ((a, b, wx, wy) :: l)
        _ = (s.drawCell a b wx wy layers).blitAll (l.flatMap (s.cellBlits layers)) := by
          rw [State.drawCells, ih (hfirst.wf hw) (hfirst.cfg ▸ hl) hrest, hsame]
        _ = s.blitAll (((a, b, wx, wy) :: l).flatMap (s.cellBlits layers)) := by
          rw [State.drawCell_eq, List.flatMap_cons, State.blitAll_append]

/-! ## The cell of a pixel -/

theorem mem_clampRange {lo hi top v : Int} : v ∈ clampRange lo hi top ↔ lo ≤ v ∧ v ≤ hi ∧ 0 ≤ v ∧ v ≤ top := by
  simp only [clampRange, List.mem_map, List.bind_eq_flatMap, List.pure_def, List.mem_flatMap, List.mem_range,
    List.mem_singleton]
  constructor
  · rintro ⟨_, ⟨i, hi, rfl⟩, rfl⟩
    omega
  · intro h
    exact ⟨v - max lo 0, ⟨(v - max lo 0).toNat, by omega, by omega⟩, by omega⟩

theorem mem_mapCells {cx0 cy0 sx sy cw ch a b wx wy : Int} : (a, b, wx, wy) ∈ mapCells cx0 cy0 sx sy cw ch ↔
    (cx0 ≤ a ∧ a < cx0 + cw ∧ cy0 ≤ b ∧ b < cy0 + ch ∧ OnMap a b) ∧
      wx = sx + 8 * (a - cx0) ∧ wy = sy + 8 * (b - cy0) := by
  simp only [mapCells, List.mem_flatMap, List.mem_map, mem_clampRange, Prod.mk.injEq, OnMap]
  constructor
  · rintro ⟨b', hb, a', ha, rfl, rfl, rfl, rfl⟩
    exact ⟨by omega, rfl, rfl⟩
  · rintro ⟨hcell, rfl, rfl⟩
    exact ⟨b, by omega, a, by omega, rfl, rfl, rfl, rfl⟩

/-- The map column or row a coordinate falls in, for cells of eight pixels that start with cell `c` at `origin`. -/
def cellAt (c origin v : Int) : Int := c + (v - origin) / 8

/-- A coordinate lies in the eight pixels of one cell, at the remainder. -/
theorem cellAt_iff {c origin camera x a : Int} :
    (origin + 8 * (a - c) - camera ≤ x ∧ x < origin + 8 * (a - c) - camera + 8) ↔ a = cellAt c origin (x + camera) := by
  unfold cellAt
  omega

theorem sub_cellAt (c origin camera x : Int) :
    x - (origin + 8 * (cellAt c origin (x + camera) - c) - camera) = (x + camera - origin) % 8 := by
  unfold cellAt
  omega

/-- The screen pixels a tile map draws: those whose cell is in the region, on the map and drawn. -/
def State.onTileMap (s : State) (layers : Operand) (cx0 cy0 sx sy cw ch x y : Int) : Prop :=
  let a := cellAt cx0 sx (x + s.cameraX)
  let b := cellAt cy0 sy (y + s.cameraY)
  (cx0 ≤ a ∧ a < cx0 + cw ∧ cy0 ≤ b ∧ b < cy0 + ch ∧ OnMap a b) ∧ s.cellShown layers a b = true

/-- The tile at a screen pixel of a map. -/
def State.tileAt (s : State) (cx0 cy0 sx sy x y : Int) : Byte :=
  s.peek (cellAddr (cellAt cx0 sx (x + s.cameraX)) (cellAt cy0 sy (y + s.cameraY)))

theorem State.mem_cellBlits (s : State) (layers : Operand) {a b wx wy x y p q : Int} (hon : onSheet x y = true) :
    (x, y, p, q) ∈ s.cellBlits layers (a, b, wx, wy) ↔ s.cellShown layers a b = true ∧
      (wx - s.cameraX ≤ x ∧ x < wx - s.cameraX + 8 ∧ wy - s.cameraY ≤ y ∧ y < wy - s.cameraY + 8) ∧
      p = (s.peek (cellAddr a b)).toNat % 16 * 8 + (x - (wx - s.cameraX)) ∧
      q = (s.peek (cellAddr a b)).toNat / 16 * 8 + (y - (wy - s.cameraY)) := by
  rw [State.cellBlits]
  split
  · next hshown => rw [mem_blitPoints hon, and_iff_right hshown]
  · next hshown => simp [hshown]

/-- An on-screen pixel is blitted by the one cell it falls in. -/
theorem State.mem_cellBlits_mapCells (s : State) (layers : Operand) (cx0 cy0 sx sy cw ch : Int) {x y : Int}
    (hon : onSheet x y = true) (p q : Int) :
    (x, y, p, q) ∈ (mapCells cx0 cy0 sx sy cw ch).flatMap (s.cellBlits layers) ↔
      s.onTileMap layers cx0 cy0 sx sy cw ch x y ∧
      p = (s.tileAt cx0 cy0 sx sy x y).toNat % 16 * 8 + (x + s.cameraX - sx) % 8 ∧
      q = (s.tileAt cx0 cy0 sx sy x y).toNat / 16 * 8 + (y + s.cameraY - sy) % 8 := by
  rw [List.mem_flatMap]
  constructor
  · rintro ⟨⟨a, b, wx, wy⟩, hcell, hblit⟩
    obtain ⟨hregion, rfl, rfl⟩ := mem_mapCells.mp hcell
    obtain ⟨hshown, ⟨hleft, hright, htop, hbottom⟩, rfl, rfl⟩ := (s.mem_cellBlits layers hon).mp hblit
    obtain rfl := cellAt_iff.mp ⟨hleft, hright⟩
    obtain rfl := cellAt_iff.mp ⟨htop, hbottom⟩
    rw [sub_cellAt, sub_cellAt]
    exact ⟨⟨hregion, hshown⟩, rfl, rfl⟩
  · rintro ⟨⟨hregion, hshown⟩, rfl, rfl⟩
    refine ⟨(_, _, _, _), mem_mapCells.mpr ⟨hregion, rfl, rfl⟩, (s.mem_cellBlits layers hon).mpr ?_⟩
    obtain ⟨hleft, hright⟩ := cellAt_iff.mpr (rfl : cellAt cx0 sx (x + s.cameraX) = _)
    obtain ⟨htop, hbottom⟩ := cellAt_iff.mpr (rfl : cellAt cy0 sy (y + s.cameraY) = _)
    rw [sub_cellAt, sub_cellAt]
    exact ⟨hshown, ⟨hleft, hright, htop, hbottom⟩, rfl, rfl⟩

/-! ## The command -/

/-- The layer filter as R402 says it: a supplied, non-zero set of layers of which the tile's flags have none, or under
`MAP_LAYER_ALL` not all. -/
theorem State.layerPasses_iff (s : State) (tile : Byte) (layers : Operand) : s.layerPasses tile layers = true ↔
    ¬ ∃ w, layers = some w ∧ low8 w ≠ 0 ∧
      ((s.cfg.mapLayerAll = true ∧ s.peek (flagsBase + tile.toNat) &&& optLow8 layers ≠ low8 w) ∨
        (s.cfg.mapLayerAll = false ∧ s.peek (flagsBase + tile.toNat) &&& optLow8 layers = 0)) := by
  unfold State.layerPasses
  cases layers with
  | none => simp [optLow8]
  | some w =>
    by_cases hzero : low8 w = 0
    · simp [optLow8, hzero]
    · have hnonzero : low8 w ≠ 0#8 := hzero
      cases s.cfg.mapLayerAll
      · simp [optLow8, hnonzero]
      · simp [optLow8, hnonzero]

theorem State.cellShown_iff (s : State) (layers : Operand) (a b : Int) : s.cellShown layers a b = true ↔
    s.peek (cellAddr a b) ≠ 0 ∧ s.layerPasses (s.peek (cellAddr a b)) layers = true := by
  rw [State.cellShown, Bool.and_eq_true, bne_iff_ne]

theorem exec_tileMap (a b sx sy cw ch : Word) (layers : Operand) (s : State) :
    exec (.tileMap (some a) (some b) (some sx) (some sy) (some cw) (some ch) layers) s =
      .next (s.drawCells layers (mapCells a.toInt b.toInt sx.toInt sy.toInt cw.toInt ch.toInt)).noResult := rfl

/-- A tile map blits the pixels of its drawn cells. -/
theorem blitsShape_drawCells {s : State} (hw : s.mem.wf = true) (hl : s.cfg.layout.ok = true) (layers : Operand)
    (cx0 cy0 sx sy cw ch : Int) :
    BlitsShape s (s.onTileMap layers cx0 cy0 sx sy cw ch)
      (fun x y => (s.tileAt cx0 cy0 sx sy x y).toNat % 16 * 8 + (x + s.cameraX - sx) % 8)
      (fun x y => (s.tileAt cx0 cy0 sx sy x y).toNat / 16 * 8 + (y + s.cameraY - sy) % 8)
      (s.drawCells layers (mapCells cx0 cy0 sx sy cw ch)) := by
  have hmap : ∀ c ∈ mapCells cx0 cy0 sx sy cw ch, OnMap c.1 c.2.1 := by
    rintro ⟨a, b, wx, wy⟩ hc
    obtain ⟨⟨-, -, -, -, hon⟩, -, -⟩ := mem_mapCells.mp hc
    exact hon
  rw [State.drawCells_eq hw hl layers hmap]
  exact blitsShape_blitAll hw hl fun _ _ hon => s.mem_cellBlits_mapCells layers cx0 cy0 sx sy cw ch hon

/-- Settles O37: a tile map is a list of blits, one cell to a pixel. -/
theorem tileMapDraws : Obligations.TileMapDraws := by
  intro s a b sx sy cw ch layers hw hl
  refine ⟨_, exec_tileMap a b sx sy cw ch layers s, fun x y hon => ?_⟩
  intro i j A B tile common filtered shown
  have hshown : s.onTileMap layers a.toInt b.toInt sx.toInt sy.toInt cw.toInt ch.toInt x y ↔ shown := by
    have hcell : s.cellShown layers A B = true ↔ tile ≠ 0 ∧ ¬ filtered :=
      (s.cellShown_iff layers A B).trans (and_congr_right fun _ => s.layerPasses_iff tile layers)
    refine (and_congr_right fun _ => hcell).trans ?_
    show (a.toInt ≤ a.toInt + i ∧ a.toInt + i < a.toInt + cw.toInt ∧ b.toInt ≤ b.toInt + j ∧
      b.toInt + j < b.toInt + ch.toInt ∧ OnMap A B) ∧ tile ≠ 0 ∧ ¬ filtered ↔ _
    rw [le_add_iff_nonneg_right, le_add_iff_nonneg_right, add_lt_add_iff_left, add_lt_add_iff_left]
    simp only [OnMap, and_assoc, shown]
  obtain ⟨hin, hout⟩ :=
    blitsShape_drawCells hw hl layers a.toInt b.toInt sx.toInt sy.toInt cw.toInt ch.toInt x y hon
  rw [hshown] at hin hout
  exact ⟨hin, hout⟩

/-- The hypotheses of `tileMapDraws` hold of a map whose cell (1, 0) has tile 1: the pixel of the empty cell left of it
stays black. -/
theorem exec_tileMap_reset : ∃ t,
    exec (.tileMap (some 0) (some 0) (some 0) (some 0) (some 2) (some 1) none) (State.reset.poke 0x2001 1) = .next t ∧
      t.pget screenBase 7 0 = 0 := by
  obtain ⟨t, hexec, hpixels⟩ :=
    tileMapDraws (State.reset.poke 0x2001 1) 0 0 0 0 2 1 none (by decide +kernel) (by decide +kernel)
  have hempty := (hpixels 7 0 rfl).2 fun ⟨_, _, _, _, _, _, _, _, htile, _⟩ => htile (by decide +kernel)
  exact ⟨t, hexec, hempty.trans (by decide +kernel)⟩

end Sys2Proof.Machine
end

section
/-! SUPPORT. Text (48_raster_blit_text.md R405, R408): the row its last line is on, and what the command leaves of
screen, pen and cursor. -/

namespace Sys2Proof.Machine

/-- Every newline moves the layout one line down. -/
theorem textLayout_row (f : ParamFn) (glyphH : Nat) (left : Int) (str : Bytes) (tx ty : Int) :
    (textLayout f glyphH left str tx ty).2 = ty + (glyphH + 1) * str.count 0x0A := by
  induction str generalizing tx ty with
  | nil => simp [textLayout]
  | cons b str ih =>
    rw [textLayout]
    split
    · next hnewline =>
      rw [ih, hnewline, List.count_cons_self]
      push_cast
      ring
    · next hglyph => rw [ih, List.count_cons_of_ne hglyph]

/-- The screen points of the glyphs of a string laid out from a world position. -/
def State.textPixels (s : State) (str : Bytes) (start : Int × Int) : List (Int × Int) :=
  (textLayout s.cfg.font s.cfg.glyphH start.1 str start.1 start.2).1.map fun q => (q.1 - s.cameraX, q.2 - s.cameraY)

theorem State.mem_textPixels (s : State) (str : Bytes) (start : Int × Int) (X Y : Int) :
    (X, Y) ∈ s.textPixels str start ↔ (X + s.cameraX, Y + s.cameraY) ∈
      (textLayout s.cfg.font s.cfg.glyphH start.1 str start.1 start.2).1 := by
  simp only [State.textPixels, List.mem_map, Prod.mk.injEq]
  constructor
  · rintro ⟨⟨x, y⟩, hmem, rfl, rfl⟩
    simpa using hmem
  · intro hmem
    exact ⟨_, hmem, add_sub_cancel_right _ _, add_sub_cancel_right _ _⟩

/-- The cursor behind a string: the starting column, one line below the last one. -/
def State.cursorAfter (s : State) (str : Bytes) (start : Int × Int) : List (DrawField × Byte) :=
  [(.cursorX, BitVec.ofInt 8 start.1),
   (.cursorY, BitVec.ofInt 8 (start.2 + (s.cfg.glyphH + 1) * (str.count 0x0A + 1)))]

/-- The state a string laid out from a world position leaves. -/
def State.afterText (s : State) (str : Bytes) (c : Operand) (start : Int × Int) : State :=
  ((s.colorStep c).plotAll (s.textPixels str start)).storeFields (s.cursorAfter str start)

theorem exec_text (str : Bytes) (x y c : Operand) (s : State) :
    exec (.text str x y c) s = .next (s.afterText str c (s.textStart x y)).noResult := by
  have hrow : (textLayout s.cfg.font s.cfg.glyphH (s.textStart x y).1 str (s.textStart x y).1
      (s.textStart x y).2).2 + s.cfg.glyphH + 1 =
      (s.textStart x y).2 + (s.cfg.glyphH + 1) * (str.count 0x0A + 1) := by
    rw [textLayout_row]
    ring
  show Host.Outcome.next (State.noResult (State.pokePairs
    ((s.colorStep c).plotAll (s.textPixels str (s.textStart x y))) _)) = _
  rw [hrow, State.afterText, State.storeFields, (s.colorStep_plotAll_writes c _).cfg]
  rfl

theorem State.textStart_missing (s : State) {x y : Operand} (h : x = none ∨ y = none) :
    s.textStart x y = ((s.cursorX.toNat : Int), (s.cursorY.toNat : Int)) := by
  unfold State.textStart
  split
  · simp at h
  · rfl

/-- What a string laid out from a world position leaves of screen, pen and cursor. -/
theorem State.afterText_draws {s : State} (hw : s.mem.wf = true) (hl : s.cfg.layout.ok = true) (str : Bytes)
    (c : Operand) (start : Int × Int) :
    DrawsShape s c (fun X Y => (X + s.cameraX, Y + s.cameraY) ∈
      (textLayout s.cfg.font s.cfg.glyphH start.1 str start.1 start.2).1) (s.afterText str c start) ∧
    (s.afterText str c start).cursorX = BitVec.ofInt 8 start.1 ∧
    (s.afterText str c start).cursorY =
      BitVec.ofInt 8 (start.2 + (s.cfg.glyphH + 1) * (str.count 0x0A + 1)) ∧
    PenAfter s c (s.afterText str c start) := by
  have hplotted := s.colorStep_plotAll_writes c (s.textPixels str start)
  have hw' : ((s.colorStep c).plotAll (s.textPixels str start)).mem.wf = true := hplotted.wf hw
  have hl' : ((s.colorStep c).plotAll (s.textPixels str start)).cfg.layout.ok = true := by rw [hplotted.cfg, hl]
  have hcursor := State.storeFields_writes ((s.colorStep c).plotAll (s.textPixels str start))
    (s.cursorAfter str start)
  have hread {f : DrawField} {v : Byte} := State.peek_storeFields hw' hl' (fs := s.cursorAfter str start)
    (by simp [State.cursorAfter]) (f := f) (v := v)
  have hdraws := drawsShape_plotAll hw hl (c := c) fun X Y _ => s.mem_textPixels str start X Y
  refine ⟨hdraws.writes hcursor hw' ?_, hread (f := .cursorX) (by simp [State.cursorAfter]),
    hread (f := .cursorY) (by simp [State.cursorAfter]), (penAfter_plotAll hw hl _).writes hcursor hw' ?_⟩
  · rintro a ⟨f, -, rfl⟩
    exact not_inScreen_of_owns hl' (Layout.owns_addr _ f)
  · rintro ⟨f, hf, haddr⟩
    obtain rfl : DrawField.pen = f := Layout.addr_injective hl' haddr
    simp [State.cursorAfter] at hf

/-- Settles O38: the text starts at the supplied point or at the cursor. -/
theorem textDraws : Obligations.TextDraws := by
  intro s str x y c hw hl
  refine ⟨_, (s.textStart x y).1, (s.textStart x y).2, exec_text str x y c s, ?_, fun hmiss => ?_, ?_⟩
  · rintro a b rfl rfl
    exact ⟨rfl, rfl⟩
  · rw [s.textStart_missing hmiss]
    exact ⟨rfl, rfl⟩
  · obtain ⟨hdraws, hx, hy, hpen⟩ := State.afterText_draws hw hl str c (s.textStart x y)
    exact ⟨hdraws.noResult, hx, hy, hpen.noResult⟩

/-- The hypotheses of `textDraws` hold of the reset state: two lines of text move the cursor two glyph heights and two
pixels down. -/
theorem exec_text_reset : ∃ t,
    exec (.text [0x41, 0x0A, 0x42] (some 3) (some 4) (some 7)) State.reset = .next t ∧ t.cursorX = 3 ∧
      t.cursorY = 16 ∧ t.pen = 7 := by
  obtain ⟨t, left, ty, hexec, hstart, -, -, hx, hy, hpen, -⟩ :=
    textDraws State.reset [0x41, 0x0A, 0x42] (some 3) (some 4) (some 7) rfl rfl
  obtain ⟨rfl, rfl⟩ := hstart 3 4 rfl rfl
  exact ⟨t, hexec, hx, hy.trans rfl, hpen 7 rfl⟩

end Sys2Proof.Machine
end

section
/-! SUPPORT. How far the readers of the decoder's streams move (30_encoding.md R114, R130, R290): a token that is read
starts inside its stream, ends behind its start, and belongs to the stage that reads it (10_state.md R50). -/

namespace Sys2Proof

/-! ## Readers of fields -/

/-- A reading from `pos` to `pos'` that took at least one bit of the stream. -/
def Consumes (b : Bytes) (pos pos' : Nat) : Prop := pos < 8 * b.length ∧ pos < pos'

theorem Consumes.trans_le {b : Bytes} {p q r : Nat} (h : Consumes b p q) (hle : q ≤ r) : Consumes b p r :=
  ⟨h.1, h.2.trans_le hle⟩

theorem readBits_le {b : Bytes} {pos n v p : Nat} (h : readBits b pos n = .ok (v, p)) : pos ≤ p := by
  obtain ⟨rfl, -⟩ := readBits_eq_ok h
  exact Nat.le_add_right pos n

/-- The first bit of a field that is not empty lies inside the stream. -/
theorem readBits_consumes {b : Bytes} {pos n v p : Nat} (h : readBits b pos (n + 1) = .ok (v, p)) :
    Consumes b pos p := by
  obtain ⟨rfl, hbits⟩ := readBits_eq_ok h
  refine ⟨?_, by omega⟩
  rw [getBits] at hbits
  split at hbits
  · cases hbits
  next hbit => exact lt_of_bitAt hbit

theorem huffDecodeFrom_consumes {t : Huff} {b : Bytes} {cs : List Nat} {pos code first index s p : Nat}
    (h : huffDecodeFrom t b cs pos code first index = .ok (s, p)) : Consumes b pos p := by
  induction cs generalizing pos code first index with
  | nil => cases h
  | cons c cs ih =>
    rw [huffDecodeFrom] at h
    split at h
    · cases h
    next bit hbit =>
      have hin := lt_of_bitAt hbit
      dsimp only at h
      split at h
      · split at h
        · cases h
        · cases h
          exact ⟨hin, Nat.lt_succ_self pos⟩
      · exact ⟨hin, (Nat.lt_succ_self pos).trans (ih h).2⟩

theorem huffDecode_consumes {t : Huff} {b : Bytes} {pos s p : Nat} (h : huffDecode t b pos = .ok (s, p)) :
    Consumes b pos p := huffDecodeFrom_consumes h

theorem readTriples_le {b : Bytes} {n pos p : Nat} {vs : List Nat} (h : readTriples b pos n = .ok (vs, p)) :
    pos ≤ p := by
  induction n generalizing pos vs p with
  | zero =>
    cases h
    exact Nat.le_refl _
  | succ n ih =>
    obtain ⟨⟨v, q⟩, hfirst, h⟩ := bind_eq_ok h
    obtain ⟨⟨ws, r⟩, hrest, h⟩ := bind_eq_ok h
    cases h
    exact (readBits_le hfirst).trans (ih hrest)

theorem readCodeLengths_le {cl : Huff} {b : Bytes} {total fuel pos p : Nat} {acc lengths : List Nat}
    (h : readCodeLengths cl b total fuel pos acc = .ok (lengths, p)) : pos ≤ p := by
  induction fuel generalizing pos acc with
  | zero =>
    cases h
    exact Nat.le_refl _
  | succ fuel ih =>
    rw [readCodeLengths] at h
    split at h
    · cases h
      exact Nat.le_refl _
    · split at h
      · cases h
      next s q hsym =>
        have hle : pos ≤ q := (huffDecode_consumes hsym).2.le
        split at h
        · exact hle.trans (ih h)
        · dsimp only at h
          split at h
          · cases h
          · split at h
            · cases h
            next hrun =>
              split at h
              · cases h
              · exact (hle.trans (readBits_le hrun)).trans (ih h)

theorem readDynamic_le {b : Bytes} {pos p : Nat} {lens : List Nat × List Nat}
    (h : readDynamic b pos = .ok (lens, p)) : pos ≤ p := by
  obtain ⟨⟨hlit, p₁⟩, hread₁, h⟩ := bind_eq_ok h
  obtain ⟨⟨hdist, p₂⟩, hread₂, h⟩ := bind_eq_ok h
  obtain ⟨⟨hclen, p₃⟩, hread₃, h⟩ := bind_eq_ok h
  have hcounts : pos ≤ p₃ := ((readBits_le hread₁).trans (readBits_le hread₂)).trans (readBits_le hread₃)
  dsimp only at h
  split at h
  · cases h
  · obtain ⟨⟨sent, p₄⟩, hsent, h⟩ := bind_eq_ok h
    dsimp only at h
    split at h
    · cases h
    · obtain ⟨⟨lengths, p₅⟩, hlengths, h⟩ := bind_eq_ok h
      dsimp only at h
      split at h
      · cases h
      · split at h
        · cases h
          exact (hcounts.trans (readTriples_le hsent)).trans (readCodeLengths_le hlengths)
        · cases h

/-- A dynamic header's code lengths are at most 286 and 30 (R225). -/
theorem readDynamic_lengths_le {b : Bytes} {pos p : Nat} {lens : List Nat × List Nat}
    (h : readDynamic b pos = .ok (lens, p)) : (lens.1 ++ lens.2).length ≤ 320 := by
  obtain ⟨hlit, hdist, lengths, -, hlitBound, hdistBound, htotal, -, rfl, -, -⟩ := readDynamic_eq_ok h
  rw [List.take_append_drop]
  omega

theorem readUnary_le {b : Bytes} {left pos u v p : Nat} (h : readUnary b left pos u = .ok (v, p)) : pos ≤ p := by
  induction left generalizing pos u with
  | zero =>
    rw [readUnary] at h
    split at h
    · cases h
    · cases h
      exact Nat.le_succ pos
    · cases h
  | succ left ih =>
    rw [readUnary] at h
    split at h
    · cases h
    · cases h
      exact Nat.le_succ pos
    · exact (Nat.le_succ pos).trans (ih h)

theorem readChain_le {b : Bytes} {fuel pos n p : Nat} (h : readChain b fuel pos = .ok (n, p)) : pos ≤ p := by
  induction fuel generalizing pos n p with
  | zero => cases h
  | succ fuel ih =>
    rw [readChain] at h
    split at h
    · cases h
    next hpart =>
      have hle := readBits_le hpart
      split at h
      · split at h
        · cases h
        next hrest =>
          cases h
          exact hle.trans (ih hrest)
      · cases h
        exact hle

namespace Machine

/-! ## Readers of tokens -/

/-- The stage a stream token belongs to (10_state.md R50); a command belongs to none. -/
def tokenStage : Instr → Stage
  | .dfStored _ | .dfFixed _ | .dfDynamic _ | .dfReserved _ => .blockHeader
  | .dfLit _ | .dfEob | .dfLen .. => .blockTokens
  | .fltNone | .fltSub | .fltUp | .fltAvg | .fltPaeth => .scanlines
  | .nfLit _ | .nfRef15 .. | .nfRef10 .. | .nfRef5 .. | .nfRaw => .newFormat
  | .lgEsc _ | .lgSym _ | .lgRef .. => .legacy
  | .rawScript => .rawScript
  | _ => .idle

/-- What belongs to a stage is no command. -/
theorem isCommand_eq_false_of_tokenStage {i : Instr} (h : tokenStage i ≠ .idle) : i.isCommand = false := by
  cases i with
  | dfStored | dfFixed | dfDynamic | dfReserved | dfLit | dfEob | dfLen => rfl
  | fltNone | fltSub | fltUp | fltAvg | fltPaeth => rfl
  | nfLit | nfRef15 | nfRef10 | nfRef5 | nfRaw => rfl
  | lgEsc | lgSym | lgRef | rawScript => rfl
  | _ => exact absurd rfl h

theorem decodeBlockHeader_ok {b : Bytes} {pos p : Nat} {i : Instr} (h : decodeBlockHeader b pos = .ok (i, p)) :
    tokenStage i = .blockHeader ∧ Consumes b pos p := by
  obtain ⟨⟨bfinal, p₁⟩, hfinal, h⟩ := bind_eq_ok h
  obtain ⟨⟨btype, p₂⟩, htype, h⟩ := bind_eq_ok h
  have hpos : Consumes b pos p₂ := (readBits_consumes hfinal).trans_le (readBits_le htype)
  dsimp only at h
  split at h
  all_goals
    cases h
    exact ⟨rfl, hpos⟩

theorem decodeBlockToken_ok {lencode distcode : Huff} {b : Bytes} {pos p : Nat} {i : Instr}
    (h : decodeBlockToken lencode distcode b pos = .ok (i, p)) :
    tokenStage i = .blockTokens ∧ Consumes b pos p := by
  obtain ⟨⟨s, p₁⟩, hsym, h⟩ := bind_eq_ok h
  have hpos := huffDecode_consumes hsym
  dsimp only at h
  split at h
  · cases h
    exact ⟨rfl, hpos⟩
  · split at h
    · cases h
      exact ⟨rfl, hpos⟩
    · split at h
      · cases h
      · obtain ⟨⟨lextra, p₂⟩, hlextra, h⟩ := bind_eq_ok h
        obtain ⟨⟨d, p₃⟩, hdist, h⟩ := bind_eq_ok h
        dsimp only at h
        split at h
        · cases h
        · obtain ⟨⟨dextra, p₄⟩, hdextra, h⟩ := bind_eq_ok h
          cases h
          exact ⟨rfl, ((hpos.trans_le (readBits_le hlextra)).trans_le (huffDecode_consumes hdist).2.le).trans_le
            (readBits_le hdextra)⟩

theorem decodeNewFormat_ok {b : Bytes} {pos p : Nat} {i : Instr} (h : decodeNewFormat b pos = .ok (i, p)) :
    tokenStage i = .newFormat ∧ Consumes b pos p := by
  obtain ⟨⟨kind, p₁⟩, hkind, h⟩ := bind_eq_ok h
  have hpos := readBits_consumes hkind
  dsimp only at h
  split at h
  · obtain ⟨⟨u, p₂⟩, hunary, h⟩ := bind_eq_ok h
    obtain ⟨⟨field, p₃⟩, hfield, h⟩ := bind_eq_ok h
    dsimp only at h
    split at h
    · cases h
    · cases h
      exact ⟨rfl, (hpos.trans_le (readUnary_le hunary)).trans_le (readBits_le hfield)⟩
  · obtain ⟨⟨s₀, p₂⟩, hs₀, h⟩ := bind_eq_ok h
    have hpos := hpos.trans_le (readBits_le hs₀)
    dsimp only at h
    split at h
    · obtain ⟨⟨field, p₃⟩, hfield, h⟩ := bind_eq_ok h
      obtain ⟨⟨n, p₄⟩, hchain, h⟩ := bind_eq_ok h
      cases h
      exact ⟨rfl, (hpos.trans_le (readBits_le hfield)).trans_le (readChain_le hchain)⟩
    · obtain ⟨⟨s₁, p₃⟩, hs₁, h⟩ := bind_eq_ok h
      have hpos := hpos.trans_le (readBits_le hs₁)
      dsimp only at h
      split at h
      · obtain ⟨⟨field, p₄⟩, hfield, h⟩ := bind_eq_ok h
        have hpos := hpos.trans_le (readBits_le hfield)
        dsimp only at h
        split at h
        · cases h
          exact ⟨rfl, hpos⟩
        · obtain ⟨⟨n, p₅⟩, hchain, h⟩ := bind_eq_ok h
          cases h
          exact ⟨rfl, hpos.trans_le (readChain_le hchain)⟩
      · obtain ⟨⟨field, p₄⟩, hfield, h⟩ := bind_eq_ok h
        obtain ⟨⟨n, p₅⟩, hchain, h⟩ := bind_eq_ok h
        cases h
        exact ⟨rfl, (hpos.trans_le (readBits_le hfield)).trans_le (readChain_le hchain)⟩

/-- Legacy codes are read bytewise. -/
theorem decodeLegacy_ok {b : Bytes} {pos p : Nat} {i : Instr} (h : decodeLegacy b pos = .ok (i, p)) :
    tokenStage i = .legacy ∧ pos < b.length ∧ pos < p := by
  unfold decodeLegacy at h
  split at h
  · cases h
  next hfirst =>
    have hin : pos < b.length := (List.getElem?_eq_some_iff.mp hfirst).1
    split at h
    · split at h
      · cases h
      · cases h
        exact ⟨rfl, hin, by omega⟩
    · split at h
      · cases h
        exact ⟨rfl, hin, by omega⟩
      · split at h
        · cases h
        · cases h
          exact ⟨rfl, hin, by omega⟩

theorem decodeFilter_ok {ft : Nat} {i : Instr} (h : decodeFilter ft = .ok i) : tokenStage i = .scanlines := by
  unfold decodeFilter at h
  split at h
  case h_6 => cases h
  all_goals
    cases h
    rfl

end Machine

end Sys2Proof
end

section
/-! SUPPORT. One step of a running decoder (41_png_container.md R190, 42_inflate.md R232, 44_code_decompress.md R304):
from a sound state it never stops the machine; it ends the load with an error, goes on with fewer steps left, or is
one of the two ends of a stage that leave the decoder. -/

namespace Sys2Proof.Machine

/-! ## The measure -/

/-- The capacities of the buffers that `Decoder.Bounded` does not speak of (42_inflate.md R212, R225;
43_png_unfilter_extract.md R250, R258). -/
structure Decoder.Fits (cfg : Config) (d : Decoder) : Prop where
  idat : d.idat.length ≤ cfg.idatCap
  pix : d.pix.length ≤ 4 * d.imgW * d.imgH
  payload : d.payload.length ≤ payloadSize
  lengths : d.lengths.length ≤ 320

/-- How many steps a running decoder can still take: a bit of the inflate stream or of the script each, a scanline
each, and one from stage to stage. -/
def Decoder.stepsLeft (d : Decoder) : Nat :=
  match d.stage with
  | .idle => 0
  | .scriptDone => 1
  | .rawScript => 2
  | .newFormat | .legacy => 8 * d.script.length - d.inPos + 2
  | .scanlines => d.imgH - d.inPos / (d.stride + 1) + (8 * scriptSize + 3)
  | .inflateDone => d.imgH + (8 * scriptSize + 4)
  | .blockHeader | .blockTokens => 8 * d.stream.length - d.inPos + (d.imgH + (8 * scriptSize + 5))

section
variable {d : Decoder}

theorem Decoder.stepsLeft_inflating (h : d.stage = .blockHeader ∨ d.stage = .blockTokens) :
    d.stepsLeft = 8 * d.stream.length - d.inPos + (d.imgH + (8 * scriptSize + 5)) := by
  obtain h | h := h
  · rw [Decoder.stepsLeft, h]
  · rw [Decoder.stepsLeft, h]

theorem Decoder.stepsLeft_inflateDone (h : d.stage = .inflateDone) :
    d.stepsLeft = d.imgH + (8 * scriptSize + 4) := by
  rw [Decoder.stepsLeft, h]

theorem Decoder.stepsLeft_scanlines (h : d.stage = .scanlines) :
    d.stepsLeft = d.imgH - d.inPos / (d.stride + 1) + (8 * scriptSize + 3) := by
  rw [Decoder.stepsLeft, h]

theorem Decoder.stepsLeft_compressed (h : d.stage = .newFormat ∨ d.stage = .legacy) :
    d.stepsLeft = 8 * d.script.length - d.inPos + 2 := by
  obtain h | h := h
  · rw [Decoder.stepsLeft, h]
  · rw [Decoder.stepsLeft, h]

theorem Decoder.stepsLeft_rawScript (h : d.stage = .rawScript) : d.stepsLeft = 2 := by
  rw [Decoder.stepsLeft, h]

theorem Decoder.stepsLeft_scriptDone (h : d.stage = .scriptDone) : d.stepsLeft = 1 := by
  rw [Decoder.stepsLeft, h]

end

/-- The decoder `d'` still runs, with fewer steps left than `d` and within the capacities if `d` is. -/
structure Decoder.Advances (d d' : Decoder) : Prop where
  running : d'.stage ≠ .idle
  shorter : d'.stepsLeft < d.stepsLeft
  fits : ∀ cfg, d.Fits cfg → d'.Fits cfg

/-- The buffers that no token of the inflate engine and of the script decoders writes. -/
def Decoder.image (d : Decoder) : Bytes × Nat × Nat × Bytes × Bytes := (d.idat, d.imgW, d.imgH, d.pix, d.payload)

theorem Decoder.Fits.of_image {cfg : Config} {d d' : Decoder} (h : d.Fits cfg) (himage : d'.image = d.image)
    (hlengths : d'.lengths.length ≤ 320) : d'.Fits cfg := by
  simp only [Decoder.image, Prod.mk.injEq] at himage
  obtain ⟨hidat, himgW, himgH, hpix, hpayload⟩ := himage
  exact ⟨hidat ▸ h.idat, by rw [hpix, himgW, himgH]; exact h.pix, hpayload ▸ h.payload, hlengths⟩

/-- A token of the inflate engine consumes at least a bit of its stream. -/
theorem Decoder.Advances.of_inflate {d d' : Decoder} (hstage : d.stage = .blockHeader ∨ d.stage = .blockTokens)
    (hpos : Consumes d.stream d.inPos d'.inPos) (himage : d'.image = d.image)
    (hstage' : (d'.stage = .blockHeader ∨ d'.stage = .blockTokens) ∨ d'.stage = .inflateDone)
    (hlengths : d.lengths.length ≤ 320 → d'.lengths.length ≤ 320) : d.Advances d' := by
  have hidat : d'.idat = d.idat := congrArg Prod.fst himage
  have himgH : d'.imgH = d.imgH := congrArg (fun p => p.2.2.1) himage
  have hstream : d'.stream = d.stream := congrArg (List.drop 2) hidat
  obtain ⟨hin, hmoved⟩ := hpos
  refine ⟨?_, ?_, fun cfg h => h.of_image himage (hlengths h.lengths)⟩
  · obtain (h | h) | h := hstage'
    all_goals
      rw [h]
      decide
  · rw [Decoder.stepsLeft_inflating hstage]
    obtain h | h := hstage'
    · rw [Decoder.stepsLeft_inflating h, hstream, himgH]
      omega
    · rw [Decoder.stepsLeft_inflateDone h, himgH]
      omega

/-- A token of a compressed script consumes at least a bit of its region. -/
theorem Decoder.Advances.of_script {d d' : Decoder} (hstage : d.stage = .newFormat ∨ d.stage = .legacy)
    (hin : d.inPos < 8 * d.script.length) (hmoved : d.inPos < d'.inPos) (himage : d'.image = d.image)
    (hlengths : d'.lengths = d.lengths) (hscript : d'.script = d.script)
    (hstage' : (d'.stage = .newFormat ∨ d'.stage = .legacy) ∨ d'.stage = .scriptDone) : d.Advances d' := by
  refine ⟨?_, ?_, fun cfg h => h.of_image himage (hlengths ▸ h.lengths)⟩
  · obtain (h | h) | h := hstage'
    all_goals
      rw [h]
      decide
  · rw [Decoder.stepsLeft_compressed hstage]
    obtain h | h := hstage'
    · rw [Decoder.stepsLeft_compressed h, hscript]
      omega
    · rw [Decoder.stepsLeft_scriptDone h]
      omega

/-- A scanline moves the cursor from line `y` to the next one (43_png_unfilter_extract.md R250). -/
theorem Decoder.Advances.nextLine {d d' : Decoder} {y : Nat} (hstage : d.stage = .scanlines)
    (hstage' : d'.stage = .scanlines) (hy : y + 1 ≤ d.imgH) (hpos : d.inPos = y * (d.stride + 1))
    (hpos' : d'.inPos = (y + 1) * (d.stride + 1)) (hpix : d'.pix.length = (y + 1) * d.stride)
    (hsize : (d'.imgW, d'.imgH) = (d.imgW, d.imgH)) (hbuffers : (d'.idat, d'.payload) = (d.idat, d.payload))
    (hlengths : d'.lengths = d.lengths) : d.Advances d' := by
  obtain ⟨himgW, himgH⟩ := Prod.mk.inj hsize
  obtain ⟨hidat, hpayload⟩ := Prod.mk.inj hbuffers
  have hstride : d'.stride = d.stride := congrArg (4 * ·) himgW
  refine ⟨by rw [hstage']; decide, ?_, fun cfg h => ⟨hidat ▸ h.idat, ?_, hpayload ▸ h.payload, hlengths ▸ h.lengths⟩⟩
  · rw [Decoder.stepsLeft_scanlines hstage, Decoder.stepsLeft_scanlines hstage', hstride, himgH, hpos, hpos',
      Nat.mul_div_cancel _ (Nat.succ_pos _), Nat.mul_div_cancel _ (Nat.succ_pos _)]
    omega
  · calc d'.pix.length
        _ = (y + 1) * d.stride := hpix
        _ ≤ d.imgH * d.stride := Nat.mul_le_mul_right _ hy
        _ = 4 * d'.imgW * d'.imgH := by rw [himgW, himgH, Nat.mul_comm, Decoder.stride]

/-! ## Tokens -/

/-- The outcome of a token: the load ends with an error, or only the decoder changes, as `P` says. -/
def Moves (s : State) (P : Decoder → Prop) (o : Out) : Prop :=
  (∃ c, c ≠ Cause.noError ∧ o = .next (s.raiseLoadError c)) ∨ ∃ d, o = .next (s.withDec d) ∧ P d

theorem moves_badDeflate (s : State) (P : Decoder → Prop) : Moves s P (badDeflate s) :=
  .inl ⟨.badDeflate, by decide, rfl⟩

theorem moves_badCodeStream (s : State) (P : Decoder → Prop) : Moves s P (badCodeStream s) :=
  .inl ⟨.badCodeStream, by decide, rfl⟩

theorem Moves.goesOn {s : State} {P : Decoder → Prop} {d : Decoder} (h : P d) : Moves s P (.next (s.withDec d)) :=
  .inr ⟨d, rfl, h⟩

/-- A token in its own stage. -/
theorem Moves.inStage {s : State} {P : Decoder → Prop} {st : Stage} {o : Out} (hstage : s.dec.stage = st)
    (h : Moves s P o) : Moves s P (s.inStage st o) := by
  rwa [State.inStage_of_eq hstage]

theorem storedLengths_le {D : Bytes} {pos len nlen p : Nat} (h : storedLengths D pos = some (len, nlen, p)) :
    pos ≤ p := by
  unfold storedLengths at h
  split at h
  · cases h
  next hlen =>
    split at h
    · cases h
    next hnlen =>
      cases h
      have hfirst := (getBits_pos hlen).1
      have hsecond := (getBits_pos hnlen).1
      unfold alignUp at hfirst
      omega

theorem copyStored_moves {s : State} {P : Decoder → Prop} {final : Bool} {len nlen pos : Nat}
    (h : ∀ raw, P { s.dec with raw := raw, inPos := pos + 8 * len, bfinal := final, stage := blockEnd final }) :
    Moves s P (s.copyStored final len nlen pos) := by
  unfold State.copyStored
  split
  · exact moves_badDeflate s P
  · split
    · exact moves_badDeflate s P
    · split
      · exact moves_badDeflate s P
      · exact .goesOn (h _)

theorem fixedLengths_le : (fixedLitLengths ++ List.replicate 30 5).length ≤ 320 := by
  decide +kernel

theorem blockEnd_cases (final : Bool) :
    (blockEnd final = .blockHeader ∨ blockEnd final = .blockTokens) ∨ blockEnd final = .inflateDone := by
  cases final with
  | false => exact .inl (.inl rfl)
  | true => exact .inr rfl

section
variable {s : State} {i : Instr} {pos : Nat}

theorem blockHeader_moves (hstage : s.dec.stage = .blockHeader) (hi : tokenStage i = .blockHeader)
    (hpos : Consumes s.dec.stream s.dec.inPos pos) :
    Moves (s.consume pos) s.dec.Advances (runToken i (s.consume pos)) := by
  cases i with
  | dfStored final =>
    refine Moves.inStage hstage ?_
    split
    · exact moves_badDeflate _ _
    next len nlen p hlengths =>
      have hle : pos ≤ p := storedLengths_le hlengths
      exact copyStored_moves fun raw => .of_inflate (.inl hstage) (hpos.trans_le (by dsimp only; omega)) rfl
        (blockEnd_cases final) id
  | dfFixed final =>
    exact Moves.inStage hstage (.goesOn (.of_inflate (.inl hstage) hpos rfl (.inl (.inr rfl)) fun _ =>
      fixedLengths_le))
  | dfDynamic final =>
    refine Moves.inStage hstage ?_
    split
    · exact moves_badDeflate _ _
    next lens p hread =>
      exact .goesOn (.of_inflate (.inl hstage) (hpos.trans_le (readDynamic_le hread)) rfl (.inl (.inr rfl)) fun _ =>
        readDynamic_lengths_le hread)
  | dfReserved final => exact Moves.inStage hstage (moves_badDeflate _ _)
  | _ => exact absurd hi nofun

theorem blockTokens_moves (hstage : s.dec.stage = .blockTokens) (hi : tokenStage i = .blockTokens)
    (hpos : Consumes s.dec.stream s.dec.inPos pos) :
    Moves (s.consume pos) s.dec.Advances (runToken i (s.consume pos)) := by
  have hraw (raw : Bytes) : s.dec.Advances { (s.consume pos).dec with raw := raw } :=
    .of_inflate (.inr hstage) hpos rfl (.inl (.inr hstage)) id
  cases i with
  | dfLit sym =>
    refine Moves.inStage hstage ?_
    split
    · exact moves_badDeflate _ _
    · exact .goesOn (hraw _)
  | dfEob => exact Moves.inStage hstage (.goesOn (.of_inflate (.inr hstage) hpos rfl (blockEnd_cases _) id))
  | dfLen lsym lextra dsym dextra =>
    refine Moves.inStage hstage ?_
    split
    · exact moves_badDeflate _ _
    · split
      · exact moves_badDeflate _ _
      · split
        · exact moves_badDeflate _ _
        · exact .goesOn (hraw _)
  | _ => exact absurd hi nofun

/-- A filter byte of a complete output reconstructs its line, and the cursor is at the next line's start. -/
theorem scanline_moves (hs : s.Sound) (hstage : s.dec.stage = .scanlines) (hpos : s.dec.inPos < s.dec.rawCap)
    (pred : Byte → Byte → Byte → Byte) :
    Moves (s.consume (s.dec.inPos + 1)) s.dec.Advances ((s.consume (s.dec.inPos + 1)).scanline pred) := by
  obtain ⟨hraw, y, -, hinPos, hpix⟩ := hs.atLine hstage
  have hcap : s.dec.rawCap = s.dec.imgH * (s.dec.stride + 1) := by
    rw [Decoder.rawCap, Decoder.stride, Nat.add_comm]
  have hy : y + 1 ≤ s.dec.imgH := by
    rw [hinPos, hcap] at hpos
    exact Nat.lt_of_mul_lt_mul_right hpos
  have hnext : s.dec.inPos + 1 + s.dec.stride = (y + 1) * (s.dec.stride + 1) := by
    rw [hinPos, Nat.succ_mul]
    omega
  have hline : s.dec.inPos + 1 + s.dec.stride ≤ s.dec.raw.length := by
    rw [hnext, hraw, hcap]
    exact Nat.mul_le_mul_right _ hy
  obtain ⟨hlength, hscan⟩ := State.scanline_of_line (s := s.consume (s.dec.inPos + 1)) hstage hline pred
  rw [hscan]
  refine .goesOn (.nextLine hstage hstage hy hinPos hnext ?_ rfl rfl rfl)
  rw [List.length_append, filterLine_length, hlength, List.length_nil, Nat.zero_add, Nat.succ_mul]
  exact congrArg (· + s.dec.stride) hpix

theorem copyCode_moves {P : Decoder → Prop} {u : State} (offset length : Nat)
    (h : ∀ out, P { u.dec with codeOut := out }) : Moves u P (u.copyCode offset length) := by
  unfold State.copyCode
  split
  · exact moves_badCodeStream u P
  · exact .goesOn (h _)

theorem rawRun_le (T : Bytes) (n p : Nat) : p ≤ (rawRun T n p).2.1 := by
  induction n generalizing p with
  | zero => exact Nat.le_refl p
  | succ n ih =>
    rw [rawRun]
    split
    · exact Nat.le_refl p
    next hbits =>
      have hle : p ≤ _ := (Nat.le_add_right p 8).trans (getBits_pos hbits).1.ge
      split
      · exact hle
      · exact hle.trans (ih _)

theorem emitCode_cases (d : Decoder) (b : Byte) : ∃ out, d.emitCode b = { d with codeOut := out } := by
  unfold Decoder.emitCode
  split
  · exact ⟨_, rfl⟩
  · exact ⟨_, rfl⟩

theorem newFormat_moves (hstage : s.dec.stage = .newFormat) (hi : tokenStage i = .newFormat)
    (hin : s.dec.inPos < 8 * s.dec.script.length) (hmoved : s.dec.inPos < pos) :
    Moves (s.consume pos) s.dec.Advances (runToken i (s.consume pos)) := by
  have hout (out : Bytes) : s.dec.Advances { (s.consume pos).dec with codeOut := out } :=
    .of_script (.inl hstage) hin hmoved rfl rfl rfl (.inl (.inl hstage))
  cases i with
  | nfLit index =>
    refine Moves.inStage hstage (.goesOn ?_)
    obtain ⟨out, hemit⟩ := emitCode_cases { (s.consume pos).dec with mtf := promote (s.consume pos).dec.mtf index.toNat }
      ((s.consume pos).dec.mtf.getD index.toNat 0)
    rw [hemit]
    exact .of_script (.inl hstage) hin hmoved rfl rfl rfl (.inl (.inl hstage))
  | nfRef15 field length | nfRef10 field length | nfRef5 field length =>
    exact Moves.inStage hstage (copyCode_moves _ _ hout)
  | nfRaw =>
    have hle := rawRun_le (s.consume pos).codeStream (s.dec.limit - s.dec.codeOut.length) pos
    refine Moves.inStage hstage (.goesOn ?_)
    refine .of_script (.inl hstage) hin (hmoved.trans_le hle) rfl rfl rfl ?_
    dsimp only
    split
    · exact .inr rfl
    · exact .inl (.inl rfl)
  | _ => exact absurd hi nofun

theorem legacy_moves (hstage : s.dec.stage = .legacy) (hi : tokenStage i = .legacy)
    (hin : s.dec.inPos < 8 * s.dec.script.length) (hmoved : s.dec.inPos < pos) :
    Moves (s.consume pos) s.dec.Advances (runToken i (s.consume pos)) := by
  have hout (out : Bytes) : s.dec.Advances { (s.consume pos).dec with codeOut := out } :=
    .of_script (.inr hstage) hin hmoved rfl rfl rfl (.inl (.inr hstage))
  have hemit (b : Byte) : s.dec.Advances ((s.consume pos).dec.emitCode b) := by
    obtain ⟨out, hemit⟩ := emitCode_cases (s.consume pos).dec b
    exact hemit ▸ hout out
  cases i with
  | lgEsc b1 => exact Moves.inStage hstage (.goesOn (hemit b1))
  | lgSym b0 => exact Moves.inStage hstage (.goesOn (hemit _))
  | lgRef b0 b1 =>
    refine Moves.inStage hstage ?_
    split
    · exact moves_badCodeStream _ _
    · exact copyCode_moves _ _ hout
  | _ => exact absurd hi nofun

theorem rawScript_moves (hstage : s.dec.stage = .rawScript) :
    Moves (s.consume pos) s.dec.Advances (runToken .rawScript (s.consume pos)) := by
  refine Moves.inStage hstage (.goesOn ⟨nofun, ?_, fun cfg h => h.of_image rfl h.lengths⟩)
  rw [Decoder.stepsLeft_rawScript hstage, Decoder.stepsLeft_scriptDone rfl]
  decide

end

/-! ## The step -/

/-- What a step of a running decoder leads to. -/
inductive StepsTo (s t : State) : Prop
  | fails (pos : Nat) (c : Cause) (hc : c ≠ .noError) (h : t = (s.consume pos).raiseLoadError c)
  | goesOn (d : Decoder) (h : t = s.withDec d) (hd : s.dec.Advances d)
  | splits (hstage : s.dec.stage = .scanlines) (h : endScanlines s = .next t)
  | finishes (h : finishLoad s = .next t)

/-- A step of the running decoder has a next state, and this is what it leads to. -/
def Steps (s : State) (o : Out) : Prop := ∃ t, o = .next t ∧ StepsTo s t

section
variable {s : State}

theorem Moves.steps {pos : Nat} {o : Out} (h : Moves (s.consume pos) s.dec.Advances o) : Steps s o := by
  obtain ⟨c, hc, rfl⟩ | ⟨d, rfl, hd⟩ := h
  · exact ⟨_, rfl, .fails pos c hc rfl⟩
  · exact ⟨_, rfl, .goesOn d rfl hd⟩

/-- A stage whose fetch is a token, a cause of failure, or the end of the script. -/
theorem steps_of_fetch
    (h : (∃ i pos, fetch s = .token i pos ∧ Moves (s.consume pos) s.dec.Advances (runToken i (s.consume pos))) ∨
      (∃ c, c ≠ .noError ∧ fetch s = .bad c) ∨ fetch s = .done ∧ Steps s (advance s)) :
    Steps s (decoderStep s) := by
  unfold decoderStep decoderAct
  obtain ⟨i, pos, hfetch, hmoves⟩ | ⟨c, hc, hfetch⟩ | ⟨hfetch, hdone⟩ := h
  · rw [hfetch]
    exact hmoves.steps
  · rw [hfetch]
    exact ⟨_, rfl, .fails s.dec.inPos c hc rfl⟩
  · rw [hfetch]
    exact hdone

theorem steps_of_inflateFetch {r : Except Reject (Instr × Nat)} (hfetch : fetch s = inflateFetch r)
    (hok : ∀ i pos, r = .ok (i, pos) → Moves (s.consume pos) s.dec.Advances (runToken i (s.consume pos))) :
    Steps s (decoderStep s) := by
  cases r with
  | ok q => exact steps_of_fetch (.inl ⟨q.1, q.2, hfetch, hok _ _ rfl⟩)
  | error e => exact steps_of_fetch (.inr (.inl ⟨_, by decide, hfetch⟩))

theorem steps_of_scriptFetch {r : Except Reject (Instr × Nat)} (hfetch : fetch s = scriptFetch r)
    (hdone : Steps s (advance s))
    (hok : ∀ i pos, r = .ok (i, pos) → Moves (s.consume pos) s.dec.Advances (runToken i (s.consume pos))) :
    Steps s (decoderStep s) := by
  cases r with
  | ok q => exact steps_of_fetch (.inl ⟨q.1, q.2, hfetch, hok _ _ rfl⟩)
  | error e =>
    cases e with
    | exhausted => exact steps_of_fetch (.inr (.inr ⟨hfetch, hdone⟩))
    | _ => exact steps_of_fetch (.inr (.inl ⟨_, by decide, hfetch⟩))

/-- The load call's trace runs to its end, whatever the engine answers. -/
theorem callLoad_completes (s : State) :
    ∃ t, callLoad s = .next (t.withVm (t.vm.afterLoad s.nextLoadAnswer)) ∧
      t.background = s.tookLoadAnswer.background ∧ (s.nextLoadAnswer.trace = [] → t = s.tookLoadAnswer) := by
  obtain ⟨t, hrun, hback⟩ := runTrace_completes s.nextLoadAnswer.trace s.tookLoadAnswer
  refine ⟨t, ?_, hback, fun htrace => ?_⟩
  · rw [callLoad, hrun, andThen_next, State.recordLoad_eq]
  · rw [htrace] at hrun
    cases hrun
    rfl

theorem exists_finishLoad (s : State) : ∃ t, finishLoad s = .next t := by
  obtain ⟨t, hcall, -, -⟩ := callLoad_completes (s.markLoaded.applySave.withDec { s.dec with stage := .idle })
  exact ⟨_, by rw [finishLoad, hcall, andThen_next]⟩

theorem steps_finishLoad (s : State) : Steps s (finishLoad s) := by
  obtain ⟨t, ht⟩ := exists_finishLoad s
  exact ⟨t, ht, .finishes ht⟩

theorem steps_endInflate (hstage : s.dec.stage = .inflateDone) : Steps s (endInflate s) := by
  unfold endInflate
  split
  · exact (moves_badDeflate (s.consume s.dec.inPos) _).steps
  · split
    · exact (moves_badDeflate (s.consume s.dec.inPos) _).steps
    · refine ⟨_, rfl, .goesOn _ rfl ⟨nofun, ?_, fun cfg h => ⟨h.idat, Nat.zero_le _, h.payload, h.lengths⟩⟩⟩
      rw [Decoder.stepsLeft_inflateDone hstage, Decoder.stepsLeft_scanlines rfl]
      simp only [Nat.zero_div]
      omega

theorem steps_scanlines (hs : s.Sound) (hstage : s.dec.stage = .scanlines) : Steps s (decoderStep s) := by
  have hfetch : fetch s = filterFetch s.dec := fetch_of_scanlines hstage
  by_cases hend : s.dec.rawCap ≤ s.dec.inPos
  · rw [filterFetch, if_pos hend] at hfetch
    refine steps_of_fetch (.inr (.inr ⟨hfetch, ?_⟩))
    rw [advance, hstage]
    exact ⟨_, rfl, .splits hstage rfl⟩
  · have hpos : s.dec.inPos < s.dec.rawCap := Nat.lt_of_not_le hend
    have hbyte : s.dec.raw[s.dec.inPos]? = some (s.dec.raw[s.dec.inPos]'((hs.atLine hstage).1 ▸ hpos)) :=
      List.getElem?_eq_getElem _
    rw [filterFetch, if_neg hend, hbyte] at hfetch
    dsimp only at hfetch
    split at hfetch
    · exact steps_of_fetch (.inr (.inl ⟨_, by decide, hfetch⟩))
    next i hfilter =>
      obtain ⟨-, pred, hpred⟩ := runToken_of_decodeFilter hfilter
      exact steps_of_fetch (.inl ⟨i, _, hfetch, hpred _ ▸ scanline_moves hs hstage hpos pred⟩)

/-- A compressed script that has reached its limit is done; below the limit it fetches a token. -/
theorem steps_compressed {r : Except Reject (Instr × Nat)} (hstage : s.dec.stage = .newFormat ∨ s.dec.stage = .legacy)
    (hfetch : fetch s = if s.dec.limit ≤ s.dec.codeOut.length then .done else scriptFetch r)
    (hok : ∀ i pos, r = .ok (i, pos) → Moves (s.consume pos) s.dec.Advances (runToken i (s.consume pos))) :
    Steps s (decoderStep s) := by
  have hdone : Steps s (advance s) := by
    obtain h | h := hstage
    · rw [advance, h]
      exact steps_finishLoad s
    · rw [advance, h]
      exact steps_finishLoad s
  split at hfetch
  · exact steps_of_fetch (.inr (.inr ⟨hfetch, hdone⟩))
  · exact steps_of_scriptFetch hfetch hdone hok

theorem codeStream_length_le (s : State) : s.codeStream.length ≤ s.dec.script.length := by
  rw [State.codeStream, List.length_drop]
  exact Nat.sub_le _ _

/-- Every stage of a sound running decoder steps. -/
theorem decoderStep_steps (hs : s.Sound) (hrun : s.dec.stage ≠ .idle) : Steps s (decoderStep s) := by
  have hlength := codeStream_length_le s
  cases hstage : s.dec.stage with
  | idle => exact absurd hstage hrun
  | blockHeader =>
    refine steps_of_inflateFetch (by rw [fetch, hstage]) fun i pos hok => ?_
    obtain ⟨hi, hpos⟩ := decodeBlockHeader_ok hok
    exact blockHeader_moves hstage hi hpos
  | blockTokens =>
    refine steps_of_inflateFetch (by rw [fetch, hstage]) fun i pos hok => ?_
    obtain ⟨hi, hpos⟩ := decodeBlockToken_ok hok
    exact blockTokens_moves hstage hi hpos
  | inflateDone =>
    refine steps_of_fetch (.inr (.inr ⟨by rw [fetch, hstage], ?_⟩))
    rw [advance, hstage]
    exact steps_endInflate hstage
  | scanlines => exact steps_scanlines hs hstage
  | newFormat =>
    refine steps_compressed (.inl hstage) (by rw [fetch, hstage]) fun i pos hok => ?_
    obtain ⟨hi, hin, hmoved⟩ := decodeNewFormat_ok hok
    exact newFormat_moves hstage hi (by omega) hmoved
  | legacy =>
    refine steps_compressed (.inr hstage) (by rw [fetch, hstage]) fun i pos hok => ?_
    obtain ⟨hi, hin, hmoved⟩ := decodeLegacy_ok hok
    exact legacy_moves hstage hi (by omega) hmoved
  | rawScript =>
    exact steps_of_fetch (.inl ⟨.rawScript, s.dec.inPos, by rw [fetch, hstage], rawScript_moves hstage⟩)
  | scriptDone =>
    refine steps_of_fetch (.inr (.inr ⟨by rw [fetch, hstage], ?_⟩))
    rw [advance, hstage]
    exact steps_finishLoad s

end

end Sys2Proof.Machine
end

section
/-! SUPPORT. A whole load (60_exceptions.md R478, R480 to R482; 41_png_container.md R190 to R195; 45_text_cart.md R310 to
R317): what a running load keeps of the state its reset left, that every loader ends, and how. -/

namespace Sys2Proof.Machine

/-! ## A running load -/

/-- What a running load keeps of the state `r` its reset left: the configuration, the controller, the script engine's
answers, every byte behind the data regions (R23), and the capacities of the buffers. -/
structure Loading (r u : State) : Prop where
  cfg : u.cfg = r.cfg
  vm : u.vm = r.vm
  answers : u.loadAnswers = r.loadAnswers
  mem : r.mem.wf = true → u.mem.wf = true ∧ ∀ x, 0x4300 ≤ x → u.peek x = r.peek x
  fits : u.dec.Fits r.cfg

/-- A load that ended with an error (R474). -/
structure LoadFailed (r t : State) : Prop where
  result : t.result = some (BitVec.ofInt 32 r.cfg.errSentinel)
  cause : t.errCause ≠ .noError
  invalid : t.cart.valid = false
  noCode : t.cart.codeLen = 0
  vm : t.vm = r.vm
  mem : r.mem.wf = true → ∀ x, 0x4300 ≤ x → t.peek x = r.peek x

/-- A load that succeeded (R480, steps 5 to 8). -/
structure LoadSucceeded (r t : State) : Prop where
  result : t.result = some (BitVec.ofNat 32 t.dec.codeOut.length)
  cause : t.errCause = .noError
  valid : t.cart.valid = true
  codeLen : t.cart.codeLen = t.dec.codeOut.length
  quiet : r.mem.wf = true → (∃ a rest, r.loadAnswers = a :: rest ∧ a.trace = []) →
    ∀ x, 0x4300 ≤ x → (x < 0x5E00 ∨ 0x5F00 ≤ x) → t.peek x = r.peek x

/-- A load that ended. -/
structure LoadEnds (r t : State) : Prop where
  idle : t.dec.stage = .idle
  fits : t.dec.Fits r.cfg
  ending : LoadFailed r t ∨ LoadSucceeded r t

/-- The outcome is the end of the load. -/
def Ends (r : State) (o : Out) : Prop := ∃ t, o = .next t ∧ LoadEnds r t

section
variable {r u t : State}

theorem Loading.withDec (h : Loading r u) {d : Decoder} (hd : d.Fits r.cfg) : Loading r (u.withDec d) :=
  ⟨h.cfg, h.vm, h.answers, h.mem, hd⟩

/-- Other cart registers beside another decoder. -/
theorem Loading.withCartDec (h : Loading r u) (c : Cart) {d : Decoder} (hd : d.Fits r.cfg) :
    Loading r { u with cart := c, dec := d } := ⟨h.cfg, h.vm, h.answers, h.mem, hd⟩

/-- Another script text. -/
theorem Loading.withCodeOut (h : Loading r u) (out : Bytes) :
    Loading r (u.withDec { u.dec with codeOut := out }) :=
  h.withDec ⟨h.fits.idat, h.fits.pix, h.fits.payload, h.fits.lengths⟩

/-- Writes to the data regions. -/
theorem Loading.writes (h : Loading r u) (hw : WritesOnly (· < 0x4300) u t) : Loading r t where
  cfg := hw.cfg.trans h.cfg
  vm := hw.vm.trans h.vm
  answers := (hw.field State.loadAnswers fun _ _ => rfl).trans h.answers
  mem hwf := by
    obtain ⟨huwf, hpeek⟩ := h.mem hwf
    exact ⟨hw.wf huwf, fun x hx => (hw.peek huwf (Nat.not_lt.mpr hx)).trans (hpeek x hx)⟩
  fits := hw.dec ▸ h.fits

/-- The error entry ends the load and writes no byte (R474). -/
theorem Loading.fail (h : Loading r u) {c : Cause} (hc : c ≠ .noError) : LoadEnds r (u.raiseLoadError c) where
  idle := rfl
  fits := h.fits.of_image rfl h.fits.lengths
  ending := .inl ⟨by rw [← h.cfg]; rfl, hc, rfl, rfl, h.vm, fun hwf => (h.mem hwf).2⟩

/-- The registers at the end of a load that succeeded, whatever the script engine answers. -/
theorem finishLoad_registers {s t : State} (h : finishLoad s = .next t) :
    t.result = some (BitVec.ofNat 32 s.dec.codeOut.length) ∧ t.errCause = .noError ∧
      t.cart = { s.cart with valid := true, codeLen := s.dec.codeOut.length } ∧
      t.dec = { s.dec with stage := .idle } := by
  have happly : s.markLoaded.applySave = s.markLoaded.withMem s.markLoaded.applySave.mem :=
    s.markLoaded.applySave_writes.1
  obtain ⟨u, hcall, hback, -⟩ := callLoad_completes (s.markLoaded.applySave.withDec { s.dec with stage := .idle })
  have hframe : u.background = (s.markLoaded.withDec { s.dec with stage := .idle }).tookLoadAnswer.background := by
    rw [hback, happly]
    rfl
  rw [finishLoad, hcall, andThen_next] at h
  cases h
  have herr : u.errCause = .noError := State.field_of_background hframe State.errCause fun _ => rfl
  have hcart : u.cart = _ := State.field_of_background hframe State.cart fun _ => rfl
  have hdec : u.dec = _ := State.field_of_background hframe State.dec fun _ => rfl
  exact ⟨rfl, herr, hcart, hdec⟩

theorem Loading.finish (h : Loading r u) (ht : finishLoad u = .next t) : LoadEnds r t := by
  obtain ⟨hresult, herr, hcart, hdec⟩ := finishLoad_registers ht
  have hcode : t.dec.codeOut = u.dec.codeOut := by rw [hdec]
  refine ⟨congrArg Decoder.stage hdec, hdec ▸ h.fits.of_image rfl h.fits.lengths,
    .inr ⟨hcode ▸ hresult, herr, congrArg Cart.valid hcart, hcode ▸ congrArg Cart.codeLen hcart, ?_⟩⟩
  rintro hwf ⟨a, rest, hanswers, htrace⟩ x hx hslots
  obtain ⟨t', ht', -, -, -, -, -, -, hquiet⟩ := finishLoad_of_answer (h.answers.trans hanswers)
  obtain rfl : t = t' := Host.Outcome.next.inj (ht.symm.trans ht')
  obtain ⟨huwf, hpeek⟩ := h.mem hwf
  have hsave : u.markLoaded.applySave.peek x = u.peek x :=
    u.markLoaded.applySave_writes.peek huwf (by unfold persistBase persistEnd; omega)
  calc t.peek x
      _ = u.markLoaded.applySave.peek x := congrArg (Memory.get · x) (hquiet htrace)
      _ = u.peek x := hsave
      _ = r.peek x := hpeek x hx

end

/-! ## The decoder runs to the end of the load -/

theorem extractPayload_length (pix : Bytes) : (extractPayload pix).length = payloadSize := by
  have hle : ((hiddenBytes pix).take payloadSize).length ≤ payloadSize := List.length_take_le _ _
  rw [extractPayload, List.length_append, List.length_replicate]
  omega

theorem State.splitPayload_writes (s : State) :
    WritesOnly (· < 0x4300) s (s.storeBlock 0 ((extractPayload s.dec.pix).take dataSize)) := by
  refine (s.storeBlock_writes _ _).mono fun x hx => ?_
  have hle : ((extractPayload s.dec.pix).take dataSize).length ≤ dataSize := List.length_take_le _ _
  unfold dataSize at hle hx
  omega

/-- The script decoder that the filter stage hands over to runs, with no more steps than its region has bits. -/
theorem forScript_stepsLeft {d : Decoder} {cap : Nat} (hscript : d.script.length ≤ scriptSize) :
    (d.forScript cap).stage ≠ .idle ∧ (d.forScript cap).stepsLeft ≤ 8 * scriptSize + 2 := by
  have hsteps : (scriptStage d.script = .newFormat ∨ scriptStage d.script = .legacy) ∨
      scriptStage d.script = .rawScript ∨ scriptStage d.script = .scriptDone := by
    unfold scriptStage
    split
    · exact .inl (.inl rfl)
    · split
      · exact .inl (.inr rfl)
      · split
        · exact .inr (.inl rfl)
        · exact .inr (.inr rfl)
  refine ⟨?_, ?_⟩
  · change scriptStage d.script ≠ .idle
    obtain (h | h) | h | h := hsteps
    all_goals
      rw [h]
      decide
  · obtain h | h | h := hsteps
    · rw [Decoder.stepsLeft_compressed h]
      change 8 * d.script.length - 0 + 2 ≤ _
      omega
    · rw [Decoder.stepsLeft_rawScript h]
      exact Nat.le_add_left 2 _
    · rw [Decoder.stepsLeft_scriptDone h]
      omega

/-- A running decoder keeps on loading with fewer steps left, or ends the load. -/
theorem StepsTo.cases {r s t : State} (hs : Loading r s) (h : StepsTo s t) :
    (Loading r t ∧ t.dec.stage ≠ .idle ∧ t.dec.stepsLeft < s.dec.stepsLeft) ∨ LoadEnds r t := by
  cases h with
  | fails pos c hc h =>
    have hconsumed : Loading r (s.consume pos) := hs.withDec (hs.fits.of_image rfl hs.fits.lengths)
    exact .inr (h ▸ hconsumed.fail hc)
  | goesOn d h hd =>
    subst h
    exact .inl ⟨hs.withDec (hd.fits _ hs.fits), hd.running, hd.shorter⟩
  | splits hstage h =>
    cases h
    have hstored : Loading r (s.storeBlock 0 ((extractPayload s.dec.pix).take dataSize)) :=
      hs.writes s.splitPayload_writes
    have hfits : s.splitPayload.dec.Fits r.cfg :=
      ⟨hs.fits.idat, hs.fits.pix, (extractPayload_length _).le, hs.fits.lengths⟩
    have hsplit : Loading r s.splitPayload := hstored.withCartDec _ hfits
    obtain ⟨hrun, hsteps⟩ := forScript_stepsLeft (d := s.splitPayload.dec) (cap := s.cfg.codeCap)
      (List.length_take_le _ _)
    refine .inl ⟨hsplit.withDec (hfits.of_image rfl hfits.lengths), hrun, ?_⟩
    rw [Decoder.stepsLeft_scanlines hstage]
    exact hsteps.trans_lt (by omega)
  | finishes h => exact .inr (hs.finish h)

theorem Decoder.stepsLeft_pos {d : Decoder} (h : d.stage ≠ .idle) : 0 < d.stepsLeft := by
  unfold Decoder.stepsLeft
  split
  next hidle => exact absurd hidle h
  all_goals omega

theorem runDecoder_of_idle {s : State} (n : Nat) (h : s.dec.stage = .idle) : runDecoder n s = .next s := by
  cases n with
  | zero => rfl
  | succ n => exact if_pos h

/-- A decoder that is given as many steps as it has left ends the load (R232, R304). -/
theorem runDecoder_ends {r s : State} {n : Nat} (hs : Loading r s) (hsound : s.Sound) (hrun : s.dec.stage ≠ .idle)
    (hn : s.dec.stepsLeft ≤ n) : Ends r (runDecoder n s) := by
  induction n generalizing s with
  | zero => exact absurd (Decoder.stepsLeft_pos hrun) (Nat.not_lt.mpr hn)
  | succ n ih =>
    obtain ⟨t, hstep, hto⟩ := decoderStep_steps hsound hrun
    have hnext : runDecoder (n + 1) s = runDecoder n t := by rw [runDecoder, if_neg hrun, hstep, andThen_next]
    rw [hnext]
    obtain ⟨ht, hrun', hless⟩ | hends := hto.cases hs
    · exact ih ht (decoderStep_sound hsound t hstep) hrun' (by omega)
    · exact ⟨t, runDecoder_of_idle n hends.idle, hends⟩

/-! ## The container stage -/

/-- The chunk walk fails with a cause, or its IDAT data is within the capacity (R194, R195). -/
def ChunksFit (cfg : Config) : Except Cause ChunkAcc → Prop
  | .error c => c ≠ .noError
  | .ok acc => acc.idat.length ≤ cfg.idatCap

theorem handleIhdr_fits {cfg : Config} {acc : ChunkAcc} (data : Bytes) (h : acc.idat.length ≤ cfg.idatCap) :
    ChunksFit cfg (handleIhdr cfg acc data) := by
  unfold handleIhdr
  dsimp only
  split
  · exact (nofun : Cause.badPng ≠ .noError)
  · split
    · exact (nofun : Cause.unsupportedPng ≠ .noError)
    · split
      · exact (nofun : Cause.badPng ≠ .noError)
      · split
        · exact (nofun : Cause.tooLarge ≠ .noError)
        · exact h

theorem handleIdat_fits (cfg : Config) (acc : ChunkAcc) (data : Bytes) : ChunksFit cfg (handleIdat cfg acc data) := by
  unfold handleIdat
  split
  · exact (nofun : Cause.badPng ≠ .noError)
  · split
    · exact (nofun : Cause.tooLarge ≠ .noError)
    next hroom =>
      change (acc.idat ++ data).length ≤ cfg.idatCap
      rw [List.length_append]
      omega

/-- A chunk by its type (R106). -/
theorem handleChunk_fits {cfg : Config} {acc : ChunkAcc} (tag data : Bytes) (h : acc.idat.length ≤ cfg.idatCap) :
    ChunksFit cfg (if tag = tagIHDR then handleIhdr cfg acc data
      else if tag = tagIDAT then handleIdat cfg acc data else .ok acc) := by
  split
  · exact handleIhdr_fits data h
  · split
    · exact handleIdat_fits cfg acc data
    · exact h

theorem walkChunks_fits {cfg : Config} {acc : ChunkAcc} (fuel : Nat) (rest : Bytes)
    (h : acc.idat.length ≤ cfg.idatCap) : ChunksFit cfg (walkChunks cfg fuel acc rest) := by
  induction fuel generalizing acc rest with
  | zero => exact h
  | succ fuel ih =>
    unfold walkChunks
    dsimp only
    split
    · exact h
    · split
      · exact (nofun : Cause.badPng ≠ .noError)
      · split
        · exact (nofun : Cause.badPng ≠ .noError)
        · split
          · exact h
          · have hchunk := handleChunk_fits ((rest.drop 4).take 4) ((rest.drop 8).take (beValue (rest.take 4))) h
            split
            next herror => exact herror ▸ hchunk
            next hok => exact ih _ (hok ▸ hchunk : ChunksFit cfg (.ok _))

theorem pngFront_fits (cfg : Config) (file : Bytes) :
    (∃ c, c ≠ .noError ∧ pngFront cfg file = .error c) ∨
      ∃ w h idat, pngFront cfg file = .ok (w, h, idat) ∧ idat.length ≤ cfg.idatCap := by
  have hwalk := walkChunks_fits (cfg := cfg) (acc := ⟨none, []⟩) (file.length + 1) (file.drop 8) (Nat.zero_le _)
  unfold pngFront
  cases hchunks : walkChunks cfg (file.length + 1) ⟨none, []⟩ (file.drop 8) with
  | error c => exact .inl ⟨c, by rwa [hchunks] at hwalk, rfl⟩
  | ok acc =>
    rw [hchunks] at hwalk
    dsimp only
    split
    · exact .inl ⟨.badPng, by decide, rfl⟩
    · split
      · exact .inl ⟨.badDeflate, by decide, rfl⟩
      · split
        · exact .inl ⟨.badDeflate, by decide, rfl⟩
        · exact .inr ⟨_, _, _, rfl, hwalk⟩

theorem loadPng_ends {r s : State} (hs : Loading r s) (hsound : s.Sound) (file : Bytes) :
    Ends r (loadPng s file) := by
  unfold loadPng
  obtain ⟨c, hc, hfront⟩ | ⟨w, h, idat, hfront, hidat⟩ := pngFront_fits s.cfg file
  · rw [hfront]
    exact ⟨_, rfl, hs.fail hc⟩
  · have hfits : (s.dec.forInflate w h idat).Fits r.cfg :=
      ⟨hs.cfg ▸ hidat, Nat.zero_le _, hs.fits.payload, hs.fits.lengths⟩
    rw [hfront]
    refine runDecoder_ends (hs.withDec hfits) ?_ nofun ?_
    · exact hsound.withDec_inflate (Nat.zero_le _) rfl rfl (blockHeader_free rfl)
    · have hstream : (idat.drop 2).length ≤ idat.length := by
        rw [List.length_drop]
        exact Nat.sub_le _ _
      rw [Decoder.stepsLeft_inflating (.inl rfl), decoderFuel]
      change 8 * (idat.drop 2).length - 0 + (h + _) ≤ 8 * idat.length + h + _ + 16
      omega

/-! ## Text carts -/

/-- Pixels of a row of the sprite sheet (R313). -/
theorem State.setPixels_writes (s : State) (y x : Nat) (ds : List (BitVec 4)) :
    WritesOnly (· < 0x4300) s (s.setPixels y x ds) := by
  induction ds generalizing s x with
  | nil => exact .refl _ s
  | cons d ds ih =>
    have hpixel : WritesOnly (· < 0x4300) s (s.pset gfxBase x y d) := by
      refine (s.pset_writes _ _ _ _).mono fun a ⟨hon, ha⟩ => ?_
      have hrange := pixelAddr_range (base := gfxBase) hon
      unfold gfxBase at *
      omega
    unfold State.setPixels
    exact hpixel.trans (ih _ (x + 1))

theorem State.gfxLine_writes (s : State) (ln : Bytes) (row : Nat) :
    WritesOnly (· < 0x4300) s (s.gfxLine ln row) := by
  unfold State.gfxLine
  split
  · exact s.setPixels_writes row 0 _
  · exact .refl _ s

/-- A row of byte pairs stays in its region (R314, R315). -/
theorem State.pairLine_writes (s : State) {base rows : Nat} (hregion : base + rows * 128 ≤ 0x4300) (ln : Bytes)
    (row : Nat) : WritesOnly (· < 0x4300) s (s.pairLine base rows ln row) := by
  unfold State.pairLine
  split
  · refine (s.pokeAll_writes _ _).mono fun a ha => ?_
    have hlen : ((digitPairs (hexRun ln)).take 128).length ≤ 128 := List.length_take_le _ _
    omega
  · exact .refl _ s

theorem textNotes_lt {fuel n : Nat} {ds : List (BitVec 4)} {q : Nat × Byte} (hq : q ∈ textNotes fuel n ds) :
    q.1 < 2 * (n + fuel) := by
  induction fuel generalizing n ds with
  | zero => exact absurd hq (List.not_mem_nil)
  | succ fuel ih =>
    unfold textNotes at hq
    split at hq
    next => contradiction
    next fuel' hfuel =>
      cases hfuel
      rcases List.mem_cons.mp hq with rfl | hq
      · dsimp only
        omega
      · rcases List.mem_cons.mp hq with rfl | hq
        · dsimp only
          omega
        · have := ih hq
          omega
    next => exact absurd hq (List.not_mem_nil)

/-- A sound line stores inside its 68-byte record (R316). -/
theorem sfxLineBytes_lt {f : ParamFn} {ln : Bytes} {q : Nat × Byte} (hq : q ∈ sfxLineBytes f ln) : q.1 < 68 := by
  cases f with
  | reference =>
    rcases List.mem_append.mp hq with hq | hq
    · have hindex : q.1 ∈ [64, 65, 66, 67] := (List.of_mem_zip (show (q.1, q.2) ∈ _ from hq)).1
      revert hindex
      simp only [List.mem_cons, List.not_mem_nil, or_false]
      omega
    · have := textNotes_lt hq
      omega
  | custom k =>
    obtain ⟨p, -, rfl⟩ := List.mem_map.mp hq
    exact p.1.isLt

/-- A music line stores inside its 4-byte pattern (R317). -/
theorem musicLineBytes_lt {f : ParamFn} {ln : Bytes} {q : Nat × Byte} (hq : q ∈ musicLineBytes f ln) : q.1 < 4 := by
  cases f with
  | reference =>
    unfold musicLineBytes at hq
    dsimp only at hq
    split at hq
    · split at hq
      · simp only [List.mem_cons, List.not_mem_nil, or_false] at hq
        rcases hq with rfl | rfl | rfl | rfl
        all_goals
          dsimp only
          omega
      · exact absurd hq (List.not_mem_nil)
    · exact absurd hq (List.not_mem_nil)
  | custom k =>
    obtain ⟨p, -, rfl⟩ := List.mem_map.mp hq
    exact p.1.isLt

/-- Pairs stored in a record that ends before 0x4300. -/
theorem State.pokeRecord_writes (s : State) {base size : Nat} (hrecord : base + size ≤ 0x4300) {l : List (Nat × Byte)}
    (hl : ∀ q ∈ l, q.1 < size) : WritesOnly (· < 0x4300) s (s.pokePairs (recordAt base l)) := by
  refine (s.pokePairs_writes _).mono fun a ha => ?_
  obtain ⟨p, hp, rfl⟩ := List.mem_map.mp ha
  obtain ⟨q, hq, rfl⟩ := List.mem_map.mp hp
  have := hl q hq
  dsimp only
  omega

theorem State.dataLine_writes (s : State) (sec : Section) (ln : Bytes) (row : Nat) :
    WritesOnly (· < 0x4300) s (s.dataLine sec ln row) := by
  cases sec with
  | graphics => exact s.gfxLine_writes ln row
  | flags => exact s.pairLine_writes (by decide) ln row
  | map => exact s.pairLine_writes (by decide) ln row
  | sound =>
    change WritesOnly _ s (s.sfxLine ln row)
    unfold State.sfxLine
    split
    · exact s.pokeRecord_writes (size := 68) (by unfold sfxBase; omega) fun q hq => sfxLineBytes_lt hq
    · exact .refl _ s
  | music =>
    change WritesOnly _ s (s.musicLine ln row)
    unfold State.musicLine
    split
    · exact s.pokeRecord_writes (size := 4) (by unfold songBase; omega) fun q hq => musicLineBytes_lt hq
    · exact .refl _ s
  | none | script | skip => exact .refl _ s

theorem Loading.textLines {r s : State} (hs : Loading r s) (sec : Section) (row : Nat) (lines : List Bytes) :
    Loading r (s.textLines sec row lines).1 := by
  induction lines generalizing s sec row with
  | nil => exact hs
  | cons ln lines ih =>
    unfold State.textLines
    split
    · exact ih hs _ 0
    · split
      · dsimp only
        split
        · exact hs
        · exact ih (hs.withCodeOut _) sec row
      · exact ih (hs.writes (s.dataLine_writes sec ln row)) sec (row + 1)

theorem loadTextCart_ends {r s : State} (hs : Loading r s) (file : Bytes) : Ends r (loadTextCart s file) := by
  have hread : Loading r (s.loadText file).1 :=
    (hs.withCodeOut []).textLines .none 0 (splitLines [] file)
  unfold loadTextCart
  dsimp only
  split
  · obtain ⟨t, ht⟩ := exists_finishLoad (s.loadText file).1
    exact ⟨t, ht, hread.finish ht⟩
  · exact ⟨_, rfl, hread.fail (by decide)⟩

/-! ## The command -/

/-- A load starts at the state its reset leaves. -/
theorem Loading.start (r : State) (h : r.dec.Fits r.cfg) : Loading r r :=
  ⟨rfl, rfl, rfl, fun hwf => ⟨hwf, fun _ _ => rfl⟩, h⟩

theorem atReset_fits (cfg : Config) (file : Bytes) (sav : Option Bytes) :
    { Decoder.atReset with file := file, sav := sav }.Fits cfg :=
  ⟨Nat.zero_le _, Nat.zero_le _, Nat.zero_le _, Nat.zero_le _⟩

/-- A load ends, whatever it is given and in whatever state it is issued (R478). -/
theorem execLoadCart_ends (src : CartSource) (s : State) : Ends s.resetCore (execLoadCart src s) := by
  have hstart : Loading s.resetCore s.resetCore := .start _ (atReset_fits _ [] none)
  cases src with
  | readFailure => exact ⟨_, rfl, hstart.fail (c := .ioError) (by decide)⟩
  | image file sav =>
    have hload := hstart.withDec (atReset_fits s.resetCore.cfg file sav)
    have hsound := (resetCore_sound s).withDec (d := { Decoder.atReset with file := file, sav := sav }) (Nat.zero_le _)
      (Nat.zero_le _) (Nat.zero_le _) nofun nofun
    unfold execLoadCart
    dsimp only
    split
    · exact ⟨_, rfl, hload.fail (c := .badContainer) (by decide)⟩
    · exact loadPng_ends hload hsound file
    · exact loadTextCart_ends hload file

/-- Settles O17: the load ends, failed or succeeded, and what holds of the buffers holds of every sound state. -/
theorem loadIsSafe : Obligations.LoadIsSafe := by
  intro s src hw _
  obtain ⟨t, hexec, hidle, hfits, hending⟩ := execLoadCart_ends src s
  obtain ⟨hcfg, hwf⟩ := execLoadCart_keepsMemory src s t hexec
  have hsound : t.Sound := execLoadCart_sound src s t hexec
  have hresetWf : s.resetCore.mem.wf = true := s.resetMem_wf hw
  rw [s.resetCore_cfg] at hfits
  refine ⟨t, hexec, hwf hw, hcfg, hidle, ?_, hfits.idat, hsound.raw_le, hfits.pix, hfits.payload,
    hcfg ▸ hsound.codeOut_le, hfits.lengths, ?_, ?_⟩
  · obtain h | h := hending
    · exact .inl ⟨s.resetCore_cfg ▸ h.result, h.cause, h.invalid, h.noCode, h.vm⟩
    · exact .inr ⟨_, hcfg ▸ hsound.codeOut_le, h.result, h.cause, h.valid, h.codeLen, rfl⟩
  · intro hinvalid
    obtain h | h := hending
    · exact h.mem hresetWf
    · exact absurd (h.valid.symm.trans hinvalid) nofun
  · intro hanswers x hx hslots
    obtain h | h := hending
    · exact h.mem hresetWf x hx
    · exact h.quiet hresetWf (s.resetCore_loadAnswers.symm ▸ hanswers) x hx hslots

/-- The hypotheses of `loadIsSafe` hold of the reset state; a cart of the PNG signature alone has no size. -/
theorem exec_loadCart_signature : ∃ t, exec (.loadCart (.image pngSignature none)) State.reset = .next t ∧
    t.dec.stage = .idle ∧ t.errCause = .badPng ∧ t.dec.raw.length ≤ t.dec.rawCap := by
  obtain ⟨t, hexec, -, -, hidle, -, -, hraw, -⟩ :=
    loadIsSafe State.reset (.image pngSignature none) (by decide +kernel) (by decide +kernel)
  have herr : t.errCause = .badPng := by
    cases hexec
    rfl
  exact ⟨t, hexec, hidle, herr, hraw⟩

end Sys2Proof.Machine
end

section
/-! SUPPORT. No step stops the machine (70_reset_and_hazards.md R528, 60_exceptions.md R478): every command ends in a
next state, and every running decoder of a sound state steps. -/

namespace Sys2Proof.Machine

/-! ## Hook calls -/

/-- A hook call runs its trace to the end and goes on with the answer (R489). -/
theorem callHook_completes (h : Hook) (f : HookAnswer → State → Out) (s : State) :
    ∃ t, runTrace (s.nextHookAnswer h).trace s.tookHookAnswer = .next t ∧
      t.background = s.tookHookAnswer.background ∧ callHook h f s = f (s.nextHookAnswer h) t := by
  obtain ⟨t, hrun, hback⟩ := runTrace_completes (s.nextHookAnswer h).trace s.tookHookAnswer
  exact ⟨t, hrun, hback, by rw [callHook, hrun, andThen_next]⟩

/-! ## Commands -/

/-- The outcome is a next state. -/
def HasNext (o : Out) : Prop := ∃ t, o = .next t

theorem hasNext_next (t : State) : HasNext (.next t) := ⟨t, rfl⟩

theorem Completes.hasNext {s : State} {o : Out} (h : Completes s o) : HasNext o := by
  obtain ⟨t, ht, -⟩ := h
  exact ⟨t, ht⟩

theorem callHook_hasNext (h : Hook) {f : HookAnswer → State → Out} (hf : ∀ a u, HasNext (f a u)) (s : State) :
    HasNext (callHook h f s) := by
  obtain ⟨t, -, -, hcall⟩ := callHook_completes h f s
  exact hcall ▸ hf _ t

theorem execRun_hasNext (s : State) : HasNext (execRun s) := by
  unfold execRun
  split
  · split
    · exact callHook_hasNext .init (fun _ _ => hasNext_next _) _
    · exact hasNext_next _
  · exact hasNext_next _

theorem drawPhase_hasNext (s : State) : HasNext (drawPhase s) := by
  unfold drawPhase
  split
  · exact callHook_hasNext .draw (fun _ _ => hasNext_next _) s
  · exact hasNext_next _

theorem afterUpdate_hasNext (a : HookAnswer) (s : State) : HasNext (afterUpdate a s) := by
  unfold afterUpdate
  split
  · exact hasNext_next _
  · exact drawPhase_hasNext s

theorem execStep_hasNext (s : State) : HasNext (execStep s) := by
  unfold execStep
  split
  · unfold frame
    split
    · exact callHook_hasNext _ afterUpdate_hasNext _
    · exact drawPhase_hasNext _
  · exact hasNext_next _

theorem execSetMasterVolume_hasNext (v : Operand) (s : State) : HasNext (execSetMasterVolume v s) := by
  cases v with
  | none => exact hasNext_next _
  | some w => exact hasNext_next _

/-- Every command: one of a trace, or one of the controller and the master volume. -/
theorem exec_hasNext {i : Instr} (hc : i.isCommand = true) (s : State) : HasNext (exec i s) := by
  cases ht : i.inTrace with
  | true => exact (exec_completes_of_inTrace ht s).hasNext
  | false =>
    cases i with
    | reset | pause | resume | stop | unload | queryError | queryFps | queryFrame => exact hasNext_next _
    | loadCart src =>
      obtain ⟨t, ht, -⟩ := execLoadCart_ends src s
      exact ⟨t, ht⟩
    | run => exact execRun_hasNext s
    | step => exact execStep_hasNext s
    | setMasterVolume v => exact execSetMasterVolume_hasNext v s
    | dfStored | dfFixed | dfDynamic | dfReserved | dfLit | dfEob | dfLen => exact absurd hc Bool.false_ne_true
    | fltNone | fltSub | fltUp | fltAvg | fltPaeth => exact absurd hc Bool.false_ne_true
    | nfLit | nfRef15 | nfRef10 | nfRef5 | nfRaw => exact absurd hc Bool.false_ne_true
    | lgEsc | lgSym | lgRef | rawScript => exact absurd hc Bool.false_ne_true
    | _ => exact absurd ht.symm Bool.false_ne_true

/-! ## The ports -/

/-- The opcode map builds commands only (R101). -/
theorem opRow_isCommand {op : Nat} {row : OpRow} (h : opRow op = some row) (o : Nat → Operand) (d : DataIn) :
    (row.build o d).isCommand = true := by
  unfold opRow at h
  split at h
  case h_45 => cases h
  all_goals
    cases h
    rfl

theorem decodeCommand_isCommand {r : Request} {i : Instr} (h : decodeCommand r = .ok i) : i.isCommand = true := by
  unfold decodeCommand at h
  split at h
  · cases h
  · split at h
    · cases h
    · split at h
      · cases h
      next hrow =>
        split at h
        · cases h
        · split at h
          · cases h
          · cases h
            exact opRow_isCommand hrow _ _

theorem portStep_hasNext (s : State) : HasNext (portStep s) := by
  unfold portStep
  split
  · exact hasNext_next _
  · split
    next hdec => exact exec_hasNext (decodeCommand_isCommand hdec) _
    all_goals exact hasNext_next _

/-! ## The running decoder -/

theorem inflateFetch_token {r : Except Reject (Instr × Nat)} {i : Instr} {pos : Nat}
    (h : inflateFetch r = .token i pos) : r = .ok (i, pos) := by
  cases r with
  | ok q =>
    cases h
    rfl
  | error e => cases h

theorem scriptFetch_token {r : Except Reject (Instr × Nat)} {i : Instr} {pos : Nat}
    (h : scriptFetch r = .token i pos) : r = .ok (i, pos) := by
  cases r with
  | ok q =>
    cases h
    rfl
  | error e => cases e <;> cases h

/-- A stage fetches tokens of its own. -/
theorem tokenStage_of_fetch {s : State} {i : Instr} {pos : Nat} (h : fetch s = .token i pos) :
    tokenStage i = s.dec.stage ∧ s.dec.stage ≠ .idle := by
  unfold fetch at h
  cases hstage : s.dec.stage with
  | idle | inflateDone | scriptDone =>
    rw [hstage] at h
    cases h
  | blockHeader =>
    rw [hstage] at h
    exact ⟨(decodeBlockHeader_ok (inflateFetch_token h)).1, nofun⟩
  | blockTokens =>
    rw [hstage] at h
    exact ⟨(decodeBlockToken_ok (inflateFetch_token h)).1, nofun⟩
  | scanlines =>
    rw [hstage] at h
    obtain ⟨-, -, ft, hft⟩ := filterFetch_token h
    exact ⟨decodeFilter_ok hft, nofun⟩
  | newFormat =>
    rw [hstage] at h
    dsimp only at h
    split at h
    · cases h
    · exact ⟨(decodeNewFormat_ok (scriptFetch_token h)).1, nofun⟩
  | legacy =>
    rw [hstage] at h
    dsimp only at h
    split at h
    · cases h
    · exact ⟨(decodeLegacy_ok (scriptFetch_token h)).1, nofun⟩
  | rawScript =>
    rw [hstage] at h
    cases h
    exact ⟨rfl, nofun⟩

theorem fetch_isCommand {s : State} {i : Instr} {pos : Nat} (h : fetch s = .token i pos) : i.isCommand = false := by
  obtain ⟨hstage, hrun⟩ := tokenStage_of_fetch h
  exact isCommand_eq_false_of_tokenStage (hstage ▸ hrun)

/-- A decoder step is the loader's, whether its tokens are executed by `exec` or by the loader. -/
theorem decoderAct_exec_eq (s : State) : decoderAct exec s = decoderStep s := by
  unfold decoderStep decoderAct
  cases hfetch : fetch s with
  | token i pos => exact exec_eq_runToken (fetch_isCommand hfetch) _
  | done | bad | missing => rfl

/-- Settles O60: on the ports every request has a next state, and a running decoder steps. -/
theorem stepNeverStops : Obligations.StepNeverStops := by
  intro s _ hs
  by_cases hidle : s.dec.stage = .idle
  · exact step_of_idle hidle ▸ portStep_hasNext s
  · obtain ⟨t, hstep, -⟩ := decoderStep_steps hs hidle
    exact ⟨t, (step_of_running hidle).trans ((decoderAct_exec_eq s).trans hstep)⟩

/-- The hypotheses of `stepNeverStops` hold of `atOnlyLine`, a scanline short of nothing. -/
theorem step_atOnlyLine_hasNext : ∃ t, step atOnlyLine = .next t :=
  stepNeverStops atOnlyLine (by decide +kernel) atOnlyLine_sound

end Sys2Proof.Machine
end

section
/-! SUPPORT. The controller (60_exceptions.md R483 to R492): the samples of a trace, the lifecycle commands and the
hooks of a frame. -/

namespace Sys2Proof.Machine

/-! ## Samples of a trace -/

/-- Every next state of the outcome has the samples of `s` on its port. -/
def KeepsSamples (s : State) (o : Out) : Prop := ∀ t, o = .next t → t.sampleOut = s.sampleOut

theorem KeepsSamples.next {s t : State} (h : t.sampleOut = s.sampleOut) : KeepsSamples s (.next t) := by
  rintro _ ⟨⟩
  exact h

theorem WritesOnly.sampleOut {P : Nat → Prop} {s t : State} (h : WritesOnly P s t) : t.sampleOut = s.sampleOut :=
  h.field State.sampleOut fun _ _ => rfl

/-- A command that returns nothing. -/
theorem KeepsSamples.noResult {s t : State} (h : t.sampleOut = s.sampleOut) : KeepsSamples s (.next t.noResult) :=
  .next h

/-- A command that only writes bytes. -/
theorem WritesOnly.keepsSamples {P : Nat → Prop} {s t : State} (h : WritesOnly P s t) :
    KeepsSamples s (.next t.noResult) := .next h.sampleOut

theorem keepsSamples_ignored (s : State) : KeepsSamples s (.next s.ignored) := .next rfl

theorem keepsSamples_noResult (s : State) : KeepsSamples s (.next s.noResult) := .next rfl

theorem readCmd_keepsSamples (n : Nat) (addr : Operand) (s : State) : KeepsSamples s (.next (readCmd n addr s)) := by
  cases addr with
  | none => exact keepsSamples_ignored s
  | some a => exact .next rfl

theorem writeCmd_keepsSamples (n : Nat) (addr v : Operand) (s : State) :
    KeepsSamples s (.next (writeCmd n addr v s)) := by
  unfold writeCmd
  split
  · exact (s.memWrite_writes _ _ _).keepsSamples
  · exact keepsSamples_ignored s

theorem execBulkCopy_keepsSamples (dst src len : Operand) (s : State) :
    KeepsSamples s (execBulkCopy dst src len s) := by
  unfold execBulkCopy
  split
  · split
    · exact keepsSamples_noResult s
    · exact (s.storeBlock_writes _ _).keepsSamples
  · exact keepsSamples_ignored s

theorem execBulkFill_keepsSamples (dst value len : Operand) (s : State) :
    KeepsSamples s (execBulkFill dst value len s) := by
  unfold execBulkFill
  split
  · split
    · exact keepsSamples_noResult s
    · exact (s.storeBlock_writes _ _).keepsSamples
  · exact keepsSamples_ignored s

theorem execSetClip_keepsSamples (x y w h : Operand) (s : State) : KeepsSamples s (execSetClip x y w h s) := by
  unfold execSetClip
  split
  · exact (s.pokePairs_writes _).keepsSamples
  · exact (s.pokePairs_writes _).keepsSamples

theorem execSetColor_keepsSamples (c : Operand) (s : State) : KeepsSamples s (execSetColor c s) := by
  cases c with
  | none => exact (s.poke_writes _ _).keepsSamples
  | some w => exact (s.poke_writes _ _).keepsSamples

theorem execSetPalette_keepsSamples (c0 c1 p : Operand) (s : State) : KeepsSamples s (execSetPalette c0 c1 p s) := by
  cases c0 with
  | none =>
    cases c1 with
    | none => exact (s.pokePairs_writes _).keepsSamples
    | some b => exact keepsSamples_noResult s
  | some a =>
    cases c1 with
    | none => exact keepsSamples_noResult s
    | some b =>
      unfold execSetPalette
      dsimp only
      split
      · exact (s.poke_writes _ _).keepsSamples
      · split
        · exact (s.poke_writes _ _).keepsSamples
        · exact keepsSamples_noResult s

theorem State.sampleOut_markAll (s : State) (l : List (BitVec 4 × Bool)) : (s.markAll l).sampleOut = s.sampleOut := by
  induction l generalizing s with
  | nil => rfl
  | cons q l ih => exact (ih _).trans (s.poke_writes _ _).sampleOut

theorem execSetTransparent_keepsSamples (c t : Operand) (s : State) :
    KeepsSamples s (execSetTransparent c t s) := by
  cases c with
  | none => exact .noResult (s.sampleOut_markAll _)
  | some a => exact (s.poke_writes _ _).keepsSamples

theorem execGetPixel_keepsSamples (x y : Operand) (s : State) : KeepsSamples s (execGetPixel x y s) := by
  unfold execGetPixel
  split
  · exact .next rfl
  · exact keepsSamples_ignored s

/-- A drawing command writes bytes only, or lacks an operand. -/
theorem exec_keepsSamples_of_draws {i : Instr} (hdraws : i.draws = true) (s : State) : KeepsSamples s (exec i s) := by
  cases hlacks : i.lacksRequired with
  | true =>
    rw [exec_of_lacksRequired s hlacks]
    exact keepsSamples_ignored s
  | false =>
    obtain ⟨t, hexec, hwrites, -⟩ := exec_drawsInClip hdraws hlacks s
    rw [hexec]
    exact hwrites.keepsSamples

theorem execSfx_keepsSamples (n channel offset : Operand) (s : State) :
    KeepsSamples s (execSfx n channel offset s) := by
  cases n with
  | none => exact keepsSamples_ignored s
  | some n =>
    refine .noResult ?_
    unfold State.playSfx
    split
    · rfl
    · split
      · rfl
      · rfl

theorem execMusic_keepsSamples (n : Operand) (s : State) : KeepsSamples s (execMusic n s) := by
  unfold execMusic
  split
  · split
    · exact .next rfl
    · split
      · exact .next rfl
      · exact keepsSamples_noResult s
  · exact keepsSamples_ignored s

/-- The commands of a trace other than sample steps. -/
theorem exec_keepsSamples {i : Instr} (hi : i.inTrace = true) (hne : i ≠ .sample) (s : State) :
    KeepsSamples s (exec i s) := by
  cases i with
  | read8 | read16 | read32 => exact readCmd_keepsSamples _ _ s
  | write8 | write16 | write32 => exact writeCmd_keepsSamples _ _ _ s
  | bulkCopy dst src len => exact execBulkCopy_keepsSamples dst src len s
  | bulkFill dst value len => exact execBulkFill_keepsSamples dst value len s
  | setClip x y w h => exact execSetClip_keepsSamples x y w h s
  | setCamera x y => exact .noResult ((State.poke16_writes _ _ _).sampleOut.trans (s.poke16_writes _ _).sampleOut)
  | setColor c => exact execSetColor_keepsSamples c s
  | setPalette c0 c1 p => exact execSetPalette_keepsSamples c0 c1 p s
  | setTransparent c t => exact execSetTransparent_keepsSamples c t s
  | setFillPattern pattern trans =>
    exact .noResult ((State.poke_writes _ _ _).sampleOut.trans (s.poke16_writes _ _).sampleOut)
  | setCursor x y c =>
    exact .noResult ((State.colorStep_writes _ c).sampleOut.trans
      ((State.poke_writes _ _ _).sampleOut.trans (s.poke_writes _ _).sampleOut))
  | clear c => exact .noResult ((State.pokePairs_writes _ _).sampleOut.trans (s.storeBlock_writes _ _).sampleOut)
  | getPixel x y => exact execGetPixel_keepsSamples x y s
  | setPixel | line | rect | rectFill | circle | circleFill | ellipse | ellipseFill | sprite | spriteScaled | tileMap
  | text => exact exec_keepsSamples_of_draws rfl s
  | sfx n channel offset => exact execSfx_keepsSamples n channel offset s
  | music n => exact execMusic_keepsSamples n s
  | sample => exact absurd rfl hne
  | _ => exact absurd hi Bool.false_ne_true

/-- A command of a trace delivers one sample if it is a sample step, else none. -/
theorem runTraceItem_samples {i : TraceItem} {s t : State} (h : runTraceItem i s = .next t) :
    ∃ samples, t.sampleOut = s.sampleOut ++ samples ∧ samples.length = if i.val = .sample then 1 else 0 := by
  rw [runTraceItem_eq_exec] at h
  split
  next hsample =>
    rw [hsample] at h
    obtain ⟨v, ht⟩ := execSample_writes h
    exact ⟨[v], by rw [ht], rfl⟩
  next hother => exact ⟨[], by rw [exec_keepsSamples i.property hother s t h, List.append_nil], rfl⟩

/-- A trace delivers as many samples as it has sample steps (R47, R489). -/
theorem runTrace_samples {tr : List TraceItem} {s t : State} (h : runTrace tr s = .next t) :
    ∃ samples, t.sampleOut = s.sampleOut ++ samples ∧ samples.length = tr.countP (fun i => i.val = .sample) := by
  induction tr generalizing s with
  | nil =>
    cases h
    exact ⟨[], (List.append_nil _).symm, rfl⟩
  | cons i tr ih =>
    obtain ⟨u, hitem, hrest⟩ := andThen_eq_next h
    obtain ⟨first, hfirst, hfirstLength⟩ := runTraceItem_samples hitem
    obtain ⟨more, hmore, hmoreLength⟩ := ih hrest
    refine ⟨first ++ more, by rw [hmore, hfirst, List.append_assoc], ?_⟩
    rw [List.length_append, hfirstLength, hmoreLength, List.countP_cons, Nat.add_comm]
    simp only [decide_eq_true_eq]

/-- Settles O10: the trace runs to its end with its background kept, and its samples are counted command by command. -/
theorem traceRunsToEnd : Obligations.TraceRunsToEnd := by
  intro tr s
  obtain ⟨t, hrun, hback⟩ := runTrace_completes tr s
  have hfield {β : Type} (f : State → β) (hf : ∀ s : State, f s.background = f s) : f t = f s :=
    State.field_of_background hback f hf
  exact ⟨t, hrun, hfield _ fun _ => rfl, hfield _ fun _ => rfl, hfield _ fun _ => rfl, hfield _ fun _ => rfl,
    hfield _ fun _ => rfl, hfield _ fun _ => rfl, hfield _ fun _ => rfl, hfield _ fun _ => rfl,
    hfield _ fun _ => rfl, runTrace_samples hrun⟩

/-! ## Lifecycle commands -/

/-- Settles O9: either command enters Stopped. -/
theorem stopUnloadStop : Obligations.StopUnloadStop := fun _ =>
  ⟨⟨_, rfl, rfl⟩, ⟨_, rfl, rfl⟩, decodeCommand_of_row rfl rfl rfl (by decide) rfl,
    decodeCommand_of_row rfl rfl rfl (by decide) rfl⟩

/-- The cause code on the result port (R472, R490). -/
theorem ofNat_causeCode (c : Cause) : (BitVec.ofNat 32 c.code : Word) = match c with
    | .noError => 0 | .badContainer => 1 | .badPng => 2 | .unsupportedPng => 3 | .tooLarge => 4
    | .badDeflate => 5 | .badFilter => 6 | .badCodeStream => 7 | .ioError => 8 := by
  cases c <;> rfl

theorem ofNat_fpsValue (f : Fps) : (BitVec.ofNat 32 f.value : Word) = match f with | .fps30 => 30 | .fps60 => 60 := by
  cases f <;> rfl

/-- Settles O14: each query delivers its register. -/
theorem queriesDeliver : Obligations.QueriesDeliver := by
  intro s
  refine ⟨?_, ?_, rfl, decodeCommand_of_row rfl rfl rfl (by decide) rfl,
    decodeCommand_of_row rfl rfl rfl (by decide) rfl, decodeCommand_of_row rfl rfl rfl (by decide) rfl⟩
  · exact congrArg (fun w => Host.Outcome.next (s.returns w)) (ofNat_causeCode s.errCause)
  · exact congrArg (fun w => Host.Outcome.next (s.returns w)) (ofNat_fpsValue s.vm.fps)

theorem exec_run_of_ready {s : State} (h : s.vm.state = .stopped ∨ s.vm.state = .paused) : exec .run s =
    if s.vm.hasInit then callHook .init afterInit (s.enter .running) else .next (s.enter .running).noResult := if_pos h

/-- Settles O11: `run` by the state it is issued in and by whether the cart has an init hook. -/
theorem runCallsInit : Obligations.RunCallsInit := by
  intro s
  refine ⟨fun hstate => ?_, fun hready hinit => ?_, fun hready hinit => ?_⟩
  · refine if_neg ?_
    obtain h | h := hstate
    all_goals
      rw [h]
      decide
  · rw [exec_run_of_ready hready, hinit]
    rfl
  · obtain ⟨t, hrun, -, hcall⟩ := callHook_completes .init afterInit (s.enter .running)
    rw [exec_run_of_ready hready, if_pos hinit, hcall]
    refine ⟨t, hrun, fun hok => ?_, fun hfail => ?_⟩
    · exact congrArg (fun u : State => Host.Outcome.next u.noResult) (if_pos hok)
    · exact congrArg (fun u : State => Host.Outcome.next u.noResult) (if_neg (hfail ▸ Bool.false_ne_true))

/-- The reset state with an init hook, whose call the script engine answers with a failure. -/
def withFailingInit : State :=
  { State.reset with vm := { Controller.atReset with hasInit := true }, hookAnswers := [⟨false, [0x65], []⟩] }

/-- The hypotheses of the hook's clause of `runCallsInit` hold of `withFailingInit`, which `run` leaves in Error. -/
theorem exec_run_withFailingInit : ∃ t, exec .run withFailingInit = .next t ∧ t.vm.state = .error ∧
    t.vm.errorMsg = [0x65] := by
  obtain ⟨t, -, -, hfail⟩ := (runCallsInit withFailingInit).2.2 (.inl rfl) rfl
  exact ⟨_, hfail rfl, rfl, rfl⟩

end Sys2Proof.Machine
end

section
/-! SUPPORT. The frame (60_exceptions.md R488, R489, R492): its hooks in order, what a hook's outcome does, and the
commit. -/

namespace Sys2Proof.Machine

/-! ## A hook's outcome -/

/-- A failure with a message stops the frame (R488). -/
theorem hookAborts_of_failed {a : HookAnswer} (h : a.ok = false ∧ a.msg ≠ []) : hookAborts a = true := by
  obtain ⟨hok, hmsg⟩ := h
  simp [hookAborts, hok, hmsg]

theorem hookAborts_of_goesOn {a : HookAnswer} (h : a.ok = true ∨ a.msg = []) : hookAborts a = false := by
  obtain h | h := h
  all_goals simp [hookAborts, h]

section
variable {a : HookAnswer} {s : State}

theorem afterDraw_of_abort (h : hookAborts a = true) : afterDraw a s = .next (s.raiseScriptError a.msg).noResult := by
  rw [afterDraw, if_pos h]

theorem afterDraw_of_goesOn (h : hookAborts a = false) : afterDraw a s = .next s.commitFrame.noResult := by
  rw [afterDraw, if_neg (h ▸ Bool.false_ne_true)]

theorem afterUpdate_of_abort (h : hookAborts a = true) :
    afterUpdate a s = .next (s.raiseScriptError a.msg).noResult := if_pos h

theorem afterUpdate_of_goesOn (h : hookAborts a = false) : afterUpdate a s = drawPhase s :=
  if_neg (h ▸ Bool.false_ne_true)

theorem drawPhase_of_none (h : s.vm.hasDraw = false) : drawPhase s = .next s.commitFrame.noResult :=
  if_neg (h ▸ Bool.false_ne_true)

theorem drawPhase_of_some (h : s.vm.hasDraw = true) : drawPhase s = callHook .draw afterDraw s := if_pos h

end

/-! ## The first hook -/

/-- A frame starts uncommitted (R488). -/
def State.frameStart (s : State) : State := s.withVm { s.vm with committed := false }

theorem exec_step_of_running {s : State} (h : s.vm.state = .running) : exec .step s = frame s.frameStart := if_pos h

theorem frame_of_update {s : State} {h : Hook} (hhook : s.vm.updateHook = some h) :
    frame s = callHook h afterUpdate s := by
  rw [frame, hhook]

theorem frame_of_noUpdate {s : State} (hhook : s.vm.updateHook = none) : frame s = drawPhase s := by
  rw [frame, hhook]

/-- A frame whose first hook is an update hook. -/
theorem exec_step_of_update {s : State} {h : Hook} (hrun : s.vm.state = .running)
    (hhook : (h = .update60 ∧ s.vm.hasUpdate60 = true) ∨
      (h = .update ∧ s.vm.hasUpdate60 = false ∧ s.vm.hasUpdate = true)) :
    exec .step s = callHook h afterUpdate s.frameStart := by
  rw [exec_step_of_running hrun]
  refine frame_of_update ?_
  change s.vm.updateHook = some h
  obtain ⟨rfl, h60⟩ | ⟨rfl, h60, h30⟩ := hhook
  · simp [Controller.updateHook, h60]
  · simp [Controller.updateHook, h60, h30]

/-- A frame without an update hook is its draw phase. -/
theorem exec_step_of_noUpdate {s : State} (hrun : s.vm.state = .running) (h60 : s.vm.hasUpdate60 = false)
    (h30 : s.vm.hasUpdate = false) : exec .step s = drawPhase s.frameStart := by
  rw [exec_step_of_running hrun]
  refine frame_of_noUpdate ?_
  change s.vm.updateHook = none
  simp [Controller.updateHook, h60, h30]

/-- Settles O12: `step` outside Running, and the frame without hooks. -/
theorem stepWithoutHooks : Obligations.StepWithoutHooks := by
  refine fun s => ⟨fun hrun => if_neg hrun, fun hrun h60 h30 hdraw => ?_⟩
  exact (exec_step_of_noUpdate hrun h60 h30).trans (drawPhase_of_none hdraw)

/-! ## The hooks in order -/

/-- The draw hook's call, by its outcome. -/
theorem drawHook_cases (s : State) : ∃ u, runTrace (s.nextHookAnswer .draw).trace s.tookHookAnswer = .next u ∧
    ((s.nextHookAnswer .draw).ok = false ∧ (s.nextHookAnswer .draw).msg ≠ [] →
      callHook .draw afterDraw s = .next (u.raiseScriptError (s.nextHookAnswer .draw).msg).noResult) ∧
    ((s.nextHookAnswer .draw).ok = true ∨ (s.nextHookAnswer .draw).msg = [] →
      callHook .draw afterDraw s = .next u.commitFrame.noResult) := by
  obtain ⟨u, hrun, -, hcall⟩ := callHook_completes .draw afterDraw s
  exact ⟨u, hrun, fun h => hcall.trans (afterDraw_of_abort (hookAborts_of_failed h)),
    fun h => hcall.trans (afterDraw_of_goesOn (hookAborts_of_goesOn h))⟩

/-- Settles O13: an update hook and what follows it, or the draw hook alone. -/
theorem stepCallsHooks : Obligations.StepCallsHooks := by
  intro s h hrun hfirst
  have hcases : ((h = .update60 ∧ s.vm.hasUpdate60 = true) ∨
      (h = .update ∧ s.vm.hasUpdate60 = false ∧ s.vm.hasUpdate = true)) ∨
      (h = .draw ∧ s.vm.hasUpdate60 = false ∧ s.vm.hasUpdate = false ∧ s.vm.hasDraw = true) := or_assoc.mpr hfirst
  obtain hupdate | ⟨rfl, h60, h30, hdraw⟩ := hcases
  · obtain ⟨t, htrace, hback, hcall⟩ := callHook_completes h afterUpdate s.frameStart
    have hstep : exec .step s = afterUpdate (s.nextHookAnswer h) t := (exec_step_of_update hrun hupdate).trans hcall
    have hnotDraw : h ≠ .draw := by
      obtain ⟨rfl, -⟩ | ⟨rfl, -⟩ := hupdate
      all_goals decide
    have hvm : t.vm.hasDraw = s.vm.hasDraw := State.field_of_background hback (fun u => u.vm.hasDraw) fun _ => rfl
    refine ⟨t, htrace, fun hfail => ?_, fun hgo hlast => ?_, fun hgo _ hdraw => ?_⟩
    · exact hstep.trans (afterUpdate_of_abort (hookAborts_of_failed hfail))
    · have hnone : t.vm.hasDraw = false := hvm.trans (hlast.resolve_left hnotDraw)
      exact hstep.trans ((afterUpdate_of_goesOn (hookAborts_of_goesOn hgo)).trans (drawPhase_of_none hnone))
    · have hnext : exec .step s = callHook .draw afterDraw t :=
        hstep.trans ((afterUpdate_of_goesOn (hookAborts_of_goesOn hgo)).trans (drawPhase_of_some (hvm.trans hdraw)))
      obtain ⟨u, hu, habort, hcommit⟩ := drawHook_cases t
      exact ⟨u, hu, fun hfail => hnext.trans (habort hfail), fun hgo' => hnext.trans (hcommit hgo')⟩
  · have hstep : exec .step s = callHook .draw afterDraw s.frameStart :=
      (exec_step_of_noUpdate hrun h60 h30).trans (drawPhase_of_some hdraw)
    obtain ⟨u, hu, habort, hcommit⟩ := drawHook_cases s.frameStart
    exact ⟨u, hu, fun hfail => hstep.trans (habort hfail), fun hgo _ => hstep.trans (hcommit hgo),
      fun _ hne => absurd rfl hne⟩

/-- The reset state running a cart with an update and a draw hook; the script engine answers the one with a failure
without a message and the other with a success. -/
def withTwoHooks : State :=
  { State.reset with
    vm := { Controller.atReset with state := .running, hasUpdate := true, hasDraw := true }
    hookAnswers := [⟨false, [], []⟩, ⟨true, [], []⟩] }

/-- The hypotheses of `stepCallsHooks` hold of the update hook of `withTwoHooks`; the frame goes on and is counted. -/
theorem exec_step_withTwoHooks : ∃ t, exec .step withTwoHooks = .next t ∧ t.vm.frame = 1 ∧ t.vm.committed = true := by
  obtain ⟨t, htrace, -, -, hdraws⟩ := stepCallsHooks withTwoHooks .update rfl (.inr (.inl ⟨rfl, rfl, rfl⟩))
  cases htrace
  obtain ⟨u, htrace, -, hcommits⟩ := hdraws (.inr rfl) nofun rfl
  cases htrace
  exact ⟨_, hcommits (.inl rfl), rfl, rfl⟩

/-- The hypotheses of the frame's clause of `stepWithoutHooks` hold of the reset state set running. -/
theorem exec_step_running : ∃ t, exec .step (State.reset.enter .running) = .next t ∧ t.vm.frame = 1 :=
  ⟨_, (stepWithoutHooks (State.reset.enter .running)).2 rfl rfl rfl rfl, rfl⟩

end Sys2Proof.Machine
end

section
/-! SUPPORT. The reset (10_state.md R65; 70_reset_and_hazards.md R512 to R514): every byte it leaves under the default
`LAYOUT`, that a second one changes nothing, and the loads that end right behind it (60_exceptions.md R480). -/

namespace Sys2Proof.Machine

/-! ## The defaults -/

/-- What a reset stores into the zeroed memory, in order (R514). -/
def resetPairs (l : Layout) (pen : Byte) : List (Nat × Byte) :=
  paletteDefaults l ++ clipDefaults l ++ [(l.pen, pen)] ++ remapDefaults l

theorem State.resetMem_eq (s : State) :
    s.resetMem = (s.withMem (keepPersist s.mem)).pokePairs (resetPairs s.cfg.layout s.cfg.defaultPen) := rfl

theorem resetPairs_keys (pen : Byte) : (resetPairs Layout.default pen).map (·.1) =
    List.range' 0x5F00 16 ++ List.range' 0x5F10 16 ++ [0x5F20, 0x5F21, 0x5F22, 0x5F23] ++ [0x5F25] ++
      [0x5F54, 0x5F55, 0x5F56, 0x5F57] := by
  rw [resetPairs, List.map_append, List.map_append, List.map_append, paletteDefaults_keys]
  rfl

theorem mem_resetPairs_keys {pen : Byte} {a : Nat} : a ∈ (resetPairs Layout.default pen).map (·.1) ↔
    (0x5F00 ≤ a ∧ a ≤ 0x5F23) ∨ a = 0x5F25 ∨ (0x5F54 ≤ a ∧ a ≤ 0x5F57) := by
  simp only [resetPairs_keys, List.mem_append, List.mem_range'_1, List.mem_cons, List.not_mem_nil, or_false]
  omega

theorem resetPairs_nodup (pen : Byte) : ((resetPairs Layout.default pen).map (·.1)).Nodup := by
  rw [resetPairs_keys]
  decide

theorem resetByte_drawPal (pen : Byte) {i : Nat} (hi : 1 ≤ i) (hi' : i < 16) :
    resetByte pen (0x5F00 + i) = BitVec.ofNat 8 i := by
  rw [resetByte, if_neg (by omega), if_pos (by omega), Nat.add_sub_cancel_left]

theorem resetByte_screenPal (pen : Byte) {i : Nat} (hi : i < 16) :
    resetByte pen (0x5F10 + i) = BitVec.ofNat 8 i := by
  rw [resetByte, if_neg (by omega), if_neg (by omega), if_pos (by omega), Nat.add_sub_cancel_left]

/-- The bytes stored are those R65 lists. -/
theorem resetPairs_value {pen : Byte} {q : Nat × Byte} (hq : q ∈ resetPairs Layout.default pen) :
    q.2 = resetByte pen q.1 := by
  simp only [resetPairs, paletteDefaults, List.cons_append, List.mem_cons, List.mem_append, List.mem_map] at hq
  rcases hq with rfl | (((⟨i, hi, rfl⟩ | ⟨i, hi, rfl⟩) | hclip) | hpen) | hremap
  · rfl
  · obtain ⟨hlow, hhigh⟩ := List.mem_range'_1.mp hi
    exact (resetByte_drawPal pen hlow hhigh).symm
  · exact (resetByte_screenPal pen (List.mem_range.mp hi)).symm
  · simp only [clipDefaults, List.mem_cons, List.not_mem_nil, or_false] at hclip
    rcases hclip with rfl | rfl | rfl | rfl
    all_goals rfl
  · obtain rfl | h := hpen
    · rfl
    · exact absurd h List.not_mem_nil
  · simp only [remapDefaults, List.mem_cons, List.not_mem_nil, or_false] at hremap
    rcases hremap with rfl | rfl | rfl | rfl
    all_goals rfl

theorem resetByte_of_not_mem {pen : Byte} {a : Nat} (h : a ∉ (resetPairs Layout.default pen).map (·.1)) :
    resetByte pen a = 0 := by
  rw [mem_resetPairs_keys] at h
  rw [resetByte, if_neg (by omega), if_neg (by omega), if_neg (by omega), if_neg (by omega), if_neg (by omega),
    if_neg (by omega), if_neg (by omega), if_neg (by omega)]

/-! ## The memory after a reset -/

section
variable {s : State} (hw : s.mem.wf = true) (hl : s.cfg.layout = Layout.default)
include hw hl

theorem State.peek_resetMem (a : Nat) : s.resetMem.peek a =
    if 0x5E00 ≤ a ∧ a ≤ 0x5EFF then s.peek a else resetByte s.cfg.defaultPen a := by
  have hwf : (s.withMem (keepPersist s.mem)).mem.wf = true := keepPersist_wf hw
  have hkept : (s.withMem (keepPersist s.mem)).peek a = if 0x5E00 ≤ a ∧ a ≤ 0x5EFF then s.peek a else 0 := by
    have hslots := keepPersist_get s.mem a
    simp only [persistBase, persistEnd, Nat.lt_succ_iff] at hslots
    exact hslots
  rw [s.resetMem_eq, hl]
  by_cases hkey : a ∈ (resetPairs Layout.default s.cfg.defaultPen).map (·.1)
  · obtain ⟨q, hq, rfl⟩ := List.mem_map.mp hkey
    have hrange := mem_resetPairs_keys.mp hkey
    rw [State.peek_pokePairs_of_mem hwf (resetPairs_nodup _) hq (by unfold ramSize; omega), resetPairs_value hq,
      if_neg (by omega)]
  · rw [(State.pokePairs_writes _ _).peek hwf hkey, hkept, resetByte_of_not_mem hkey]

theorem State.peek_resetCore (a : Nat) : s.resetCore.peek a =
    if 0x5E00 ≤ a ∧ a ≤ 0x5EFF then s.peek a else resetByte s.cfg.defaultPen a := by
  rw [State.peek, s.resetCore_mem]
  exact State.peek_resetMem hw hl a

/-- A reset of a state with the memory a reset left builds that memory again. -/
theorem State.resetMem_of_mem_eq {t : State} (hmem : t.mem = s.resetMem.mem) (hcfg : t.cfg = s.cfg) :
    t.resetMem.mem = s.resetMem.mem := by
  have hwf : t.mem.wf = true := by
    rw [hmem]
    exact s.resetMem_wf hw
  have hpeek (a : Nat) : t.peek a = if 0x5E00 ≤ a ∧ a ≤ 0x5EFF then s.peek a else resetByte s.cfg.defaultPen a := by
    rw [State.peek, hmem]
    exact State.peek_resetMem hw hl a
  refine Memory.ext (t.resetMem_wf hwf) (s.resetMem_wf hw) fun a => ?_
  have hagain := State.peek_resetMem hwf (hcfg ▸ hl) a
  rw [hpeek, hcfg] at hagain
  refine hagain.trans ((ite_congr rfl (fun hslot => ?_) fun _ => rfl).trans (State.peek_resetMem hw hl a).symm)
  exact if_pos hslot

end

/-- A reset by the fields it sets; the others stay. -/
theorem State.resetCore_eq (s : State) : s.resetCore = { s with
    mem := s.resetMem.mem
    channels := Channels.atReset s.cfg.lfsrSeed
    mus := Music.atReset
    masterVol := s.cfg.masterVolReset
    cart := Cart.atReset
    errCause := .noError
    vm := Controller.atReset
    dec := Decoder.atReset } := by
  have hwrites : s.resetMem = (s.withMem (keepPersist s.mem)).withMem s.resetMem.mem :=
    (State.pokePairs_writes (s.withMem (keepPersist s.mem)) _).1
  rw [State.resetCore]
  conv_lhs => rw [hwrites]
  rfl

/-! A reset leaves the host's ports and the script engine's answers alone (log entries 3 and 4). -/

@[simp] theorem State.resetCore_port (s : State) : s.resetCore.port = s.port := by rw [s.resetCore_eq]
@[simp] theorem State.resetCore_sampleOut (s : State) : s.resetCore.sampleOut = s.sampleOut := by rw [s.resetCore_eq]
@[simp] theorem State.resetCore_hookAnswers (s : State) : s.resetCore.hookAnswers = s.hookAnswers := by
  rw [s.resetCore_eq]
@[simp] theorem State.resetCore_engineCalls (s : State) : s.resetCore.engineCalls = s.engineCalls := by
  rw [s.resetCore_eq]

theorem exec_reset (s : State) : exec .reset s = .next s.resetCore.noResult := rfl

/-- A second reset answers what the first left. -/
theorem exec_reset_resetCore {s : State} (hw : s.mem.wf = true) (hl : s.cfg.layout = Layout.default) :
    exec .reset s.resetCore.noResult = .next s.resetCore.noResult := by
  obtain ⟨t, ht⟩ : ∃ t, t = s.resetCore.noResult := ⟨_, rfl⟩
  have hfields := ht.trans (congrArg State.noResult s.resetCore_eq)
  have hmem : t.resetMem.mem = s.resetMem.mem :=
    State.resetMem_of_mem_eq hw hl (by rw [hfields, State.noResult_mem]) (by rw [hfields, State.noResult_cfg])
  rw [← ht, exec_reset, t.resetCore_eq, hmem, hfields, State.noResult_cfg]
  rfl

/-! ## The obligations -/

theorem Channels.get_atReset (seed : Half) (c : Fin 4) : (Channels.atReset seed).get c = Channel.atReset seed := by
  match c with
  | 0 | 1 | 2 | 3 => rfl

/-- Settles O6: the memory byte by byte, the registers by the fields a reset sets, and the second reset. -/
theorem resetLeaves : Obligations.ResetLeaves := by
  intro s hw hl
  obtain ⟨r, hr⟩ : ∃ r, r = s.resetCore := ⟨_, rfl⟩
  have hfields := hr.trans s.resetCore_eq
  have hpeek (a : Nat) : r.noResult.peek a =
      if 0x5E00 ≤ a ∧ a ≤ 0x5EFF then s.peek a else resetByte s.cfg.defaultPen a := by
    rw [State.peek_noResult, hr]
    exact State.peek_resetCore hw hl a
  have hagain : exec .reset r.noResult = .next r.noResult := by
    rw [hr]
    exact exec_reset_resetCore hw hl
  have hchannels : r.channels = Channels.atReset s.cfg.lfsrSeed := by rw [hfields]
  have hmus : r.mus = Music.atReset := by rw [hfields]
  have hvol : r.masterVol = s.cfg.masterVolReset := by rw [hfields]
  have hcart : r.cart = Cart.atReset := by rw [hfields]
  have herr : r.errCause = .noError := by rw [hfields]
  have hvm : r.vm = Controller.atReset := by rw [hr, s.resetCore_vm]
  have hdec : r.dec = Decoder.atReset := by rw [hr, s.resetCore_dec]
  refine ⟨r.noResult, ?_, fun a ha => ?_, fun a ha => ?_, fun c => ?_, hmus, hvol, hcart, herr, hvm, ?_, rfl, ?_, ?_,
    ?_, ?_, ?_, ?_, hagain⟩
  · rw [hr, exec_reset]
  · rw [hpeek, if_pos ha]
  · rw [hpeek, if_neg (by omega)]
  · exact (congrArg (Channels.get · c) hchannels).trans (Channels.get_atReset _ c)
  · exact congrArg Decoder.stage hdec
  · exact (congrArg State.cfg hr).trans s.resetCore_cfg
  · exact (congrArg State.port hr).trans s.resetCore_port
  · exact (congrArg State.sampleOut hr).trans s.resetCore_sampleOut
  · exact (congrArg State.loadAnswers hr).trans s.resetCore_loadAnswers
  · exact (congrArg State.hookAnswers hr).trans s.resetCore_hookAnswers
  · exact (congrArg State.engineCalls hr).trans s.resetCore_engineCalls

/-- The reset state with a byte in a save slot and one on the screen, and no default. -/
def withTwoBytes : State := { State.reset with mem := [(0x5E10, 7), (0x6000, 9)] }

/-- The hypotheses of `resetLeaves` hold of `withTwoBytes`: the save slot stays, the screen is cleared, the pen is
the default one. -/
theorem exec_reset_withTwoBytes : ∃ t, exec .reset withTwoBytes = .next t ∧
    t.peek 0x5E10 = 7 ∧ t.peek 0x6000 = 0 ∧ t.peek 0x5F25 = 6 := by
  obtain ⟨t, hexec, hslots, hbytes, -⟩ := resetLeaves withTwoBytes (by decide) rfl
  have hslot : withTwoBytes.peek 0x5E10 = 7 := by decide
  have hscreen : resetByte withTwoBytes.cfg.defaultPen 0x6000 = 0 := by decide
  have hpen : resetByte withTwoBytes.cfg.defaultPen 0x5F25 = 6 := by decide
  exact ⟨t, hexec, (hslots _ (by decide)).trans hslot, (hbytes _ (by decide)).trans hscreen,
    (hbytes _ (by decide)).trans hpen⟩

/-- Settles O7: the reset state is one of a reset core, whose memory is evaluated. -/
theorem resetStateIsSound : Obligations.ResetStateIsSound := by
  refine ⟨by decide +kernel, ?_, ?_⟩
  · exact ⟨⟨Nat.zero_le _, Nat.zero_le _, Nat.zero_le _, nofun⟩, nofun, Nat.zero_le _, fun _ => rfl⟩
  · have hmem : State.reset.resetMem.mem = resetMemory := by decide +kernel
    rw [exec_reset, State.resetCore_eq, hmem]
    rfl

/-- Settles O15: neither a read failure nor an unknown container gets past the reset. -/
theorem loadRefusedEarly : Obligations.LoadRefusedEarly := by
  intro s file sav
  have hresult : some (BitVec.ofInt 32 s.resetCore.cfg.errSentinel) = some (BitVec.ofInt 32 s.cfg.errSentinel) := by
    rw [s.resetCore_cfg]
  refine ⟨⟨_, rfl, rfl, hresult, rfl, rfl, rfl, rfl, rfl⟩, fun hpng htext => ?_⟩
  have hnone : detectContainer file = none := (if_neg hpng).trans (if_neg htext)
  refine ⟨(s.resetCore.withDec { s.resetCore.dec with file := file, sav := sav }).raiseLoadError .badContainer, ?_, rfl,
    hresult, rfl, rfl, rfl, rfl, rfl⟩
  change execLoadCart (.image file sav) s = _
  simp only [execLoadCart, hnone]

/-- The hypotheses of the container's clause of `loadRefusedEarly` hold of an image of one byte. -/
theorem exec_loadCart_unknown : ∃ t, exec (.loadCart (.image [0x21] none)) State.reset = .next t ∧
    t.errCause = .badContainer := by
  obtain ⟨t, hexec, herr, -⟩ := (loadRefusedEarly State.reset [0x21] none).2 (by decide) (by decide)
  exact ⟨t, hexec, herr⟩

end Sys2Proof.Machine
end

section
/-! SUPPORT. The synthesizer's registers (49_synth.md R420 to R455): the channel file, the operands of `sfx`, the
start of a note, and the commands `sfx`, `music` and `set_master_volume`. -/

namespace Sys2Proof.Machine

/-! ## The channel file -/

theorem Channels.get_put (cs : Channels) (c d : Fin 4) (v : Channel) :
    (cs.put c v).get d = if d = c then v else cs.get d := by
  match c with
  | 0 | 1 | 2 | 3 => (match d with | 0 | 1 | 2 | 3 => rfl)

@[simp] theorem Channels.get_put_same (cs : Channels) (c : Fin 4) (v : Channel) : (cs.put c v).get c = v := by
  rw [Channels.get_put, if_pos rfl]

theorem Channels.get_put_of_ne (cs : Channels) {c d : Fin 4} (h : d ≠ c) (v : Channel) :
    (cs.put c v).get d = cs.get d := by
  rw [Channels.get_put, if_neg h]

/-! ## Operands -/

theorem asFin_eq_some {n : Nat} {v : Int} {i : Fin n} : asFin n v = some i ↔ v = i.val := by
  unfold asFin
  split
  · split
    · rw [Option.some_inj, Fin.ext_iff]
      change v.toNat = i.val ↔ v = i.val
      omega
    · exact ⟨nofun, by omega⟩
  · exact ⟨nofun, by have := i.isLt; omega⟩

theorem asFin_eq_none {n : Nat} {v : Int} : asFin n v = none ↔ v < 0 ∨ (n : Int) ≤ v := by
  rw [Option.eq_none_iff_forall_ne_some]
  refine ⟨fun h => ?_, fun h i hi => ?_⟩
  · by_contra hrange
    have hlt : v.toNat < n := by omega
    exact h ⟨v.toNat, hlt⟩ (asFin_eq_some.mpr (Int.toNat_of_nonneg (by omega)).symm)
  · have hval := asFin_eq_some.mp hi
    have := i.isLt
    omega

theorem channelOperand_eq_some {channel : Operand} {c : Fin 4} :
    channelOperand channel = some c ↔ ∃ v, channel = some v ∧ v.toInt = c.val := by
  cases channel with
  | none => exact ⟨nofun, nofun⟩
  | some w => simp [channelOperand, asFin_eq_some, sval]

theorem channelOperand_eq_none {channel : Operand} :
    channelOperand channel = none ↔ channel = none ∨ ∃ v, channel = some v ∧ (v.toInt < 0 ∨ 3 < v.toInt) := by
  cases channel with
  | none => exact ⟨fun _ => .inl rfl, fun _ => rfl⟩
  | some w =>
    have hrange : sval w < 0 ∨ ((4 : Nat) : Int) ≤ sval w ↔ w.toInt < 0 ∨ 3 < w.toInt := by unfold sval; omega
    simp [channelOperand, asFin_eq_none.trans hrange]

/-! ## The channel chosen (R430) -/

theorem Channels.pick_of_some {cs : Channels} {channel : Operand} {c : Fin 4} (h : channelOperand channel = some c) :
    cs.pick channel = c := by
  rw [Channels.pick, h]

/-- The lowest element of `Fin n` that a search finds. -/
theorem find?_finRange_eq_some {n : Nat} {p : Fin n → Bool} {i : Fin n} (h : (List.finRange n).find? p = some i) :
    p i = true ∧ ∀ j < i, p j = false := by
  obtain ⟨hi, before, after, hsplit, hbefore⟩ := List.find?_eq_some_iff_append.mp h
  refine ⟨hi, fun j hj => ?_⟩
  have hsorted := List.pairwise_lt_finRange n
  have hmem := List.mem_finRange j
  rw [hsplit] at hsorted hmem
  obtain ⟨-, hafter, -⟩ := List.pairwise_append.mp hsorted
  rcases List.mem_append.mp hmem with hj' | hj'
  · simpa using hbefore j hj'
  · rcases List.mem_cons.mp hj' with rfl | hj'
    · exact absurd hj (lt_irrefl _)
    · exact absurd ((List.pairwise_cons.mp hafter).1 j hj') (lt_asymm hj)

/-- Without an explicit channel: the lowest-numbered idle one, or channel 0 when none is idle. -/
theorem Channels.pick_of_none {cs : Channels} {channel : Operand} (h : channelOperand channel = none) :
    ((cs.get (cs.pick channel)).sfxIdx = none ∧ ∀ d < cs.pick channel, (cs.get d).sfxIdx ≠ none) ∨
      ((∀ d, (cs.get d).sfxIdx ≠ none) ∧ cs.pick channel = 0) := by
  have hpick : cs.pick channel = ((List.finRange 4).find? fun c => (cs.get c).sfxIdx.isNone).getD 0 := by
    rw [Channels.pick, h]
  cases hfind : (List.finRange 4).find? fun c => (cs.get c).sfxIdx.isNone with
  | none =>
    rw [hfind] at hpick
    refine .inr ⟨fun d hd => List.find?_eq_none.mp hfind d (List.mem_finRange d) ?_, hpick⟩
    rw [hd, Option.isNone_none]
  | some c =>
    rw [hfind, Option.getD_some] at hpick
    obtain ⟨hidle, hbusy⟩ := find?_finRange_eq_some hfind
    rw [hpick]
    refine .inl ⟨Option.isNone_iff_eq_none.mp hidle, fun d hd hnone => ?_⟩
    have hfalse := hbusy d hd
    rw [hnone] at hfalse
    exact absurd hfalse (by decide)

/-! ## The start of a note (R443) -/

theorem State.noteWord_eq (s : State) (n : Fin 64) (k : Fin 32) :
    s.noteWord n k = s.peek16 (0x3200 + 68 * n.val + 2 * k.val) := rfl

/-- The pitch of a note word is its low six bits. -/
theorem noteWord_pitch (w : Half) : (w.extractLsb' 0 6).toNat = w.toNat % 64 := by
  rw [BitVec.extractLsb'_toNat, Nat.shiftRight_zero]

/-- A note's start is its fields cached in a channel at that note and at tick and phase 0. -/
theorem State.loadNote_eq_startNote (s : State) (n : Fin 64) (k : Fin 32) (c : Channel) :
    s.loadNote n { c with noteIdx := k, tickCtr := 0, phase := 0 } = s.startNote n k c := by
  rw [State.loadNote, cacheNote, noteWord_pitch]
  rfl

/-- A sound effect's start is the start of its first note to play, with its number and its speed. -/
theorem State.trigger_eq (s : State) (n : Fin 64) (off : Fin 32) (c : Channel) : s.trigger n off c =
    s.startNote n off { c with
      sfxIdx := some n
      samplesPerTick := samplesPerTick s.cfg.sampleRate (s.peek (0x3200 + 68 * n.val + 65)) } := by
  rw [← State.loadNote_eq_startNote]
  rfl

/-! ## The commands -/

theorem exec_sfx (s : State) (n : Word) (channel offset : Operand) :
    exec (.sfx (some n) channel offset) s = .next (s.playSfx n.toInt channel offset).noResult := rfl

theorem State.playSfx_start {s : State} {channel offset : Operand} {n : Int} {i : Fin 64} {o : Fin 32}
    (hn : n = i.val) (ho : optInt offset 0 = o.val) : s.playSfx n channel offset =
      s.withChannels (s.channels.put (s.channels.pick channel)
        (s.trigger i o (s.channels.get (s.channels.pick channel)))) := by
  rw [State.playSfx, if_neg (by omega), asFin_eq_some.mpr hn, asFin_eq_some.mpr ho]

theorem State.playSfx_stop {s : State} {channel offset : Operand} :
    s.playSfx (-1) channel offset = s.withChannels (s.channels.stop channel) := if_pos rfl

/-- A number or a note out of range. -/
theorem State.playSfx_ignored {s : State} {channel offset : Operand} {n : Int} (hn : n ≠ -1)
    (h : asFin 64 n = none ∨ asFin 32 (optInt offset 0) = none) : s.playSfx n channel offset = s := by
  rw [State.playSfx, if_neg hn]
  rcases h with h | h
  · rw [h]
  · rw [h]
    cases asFin 64 n with
    | none => rfl
    | some i => rfl

/-- Settles O39: the channel `pick` names, with a note's start in it. -/
theorem sfxStarts : Obligations.SfxStarts := by
  intro s n channel offset i o hn ho
  have hoffset : optInt offset 0 = o.val := by
    rcases ho with ⟨rfl, rfl⟩ | ⟨v, rfl, hv⟩
    · rfl
    · exact hv
  refine ⟨_, s.channels.pick channel, exec_sfx s n channel offset, ?_, ?_, fun d hd => ?_, ?_⟩
  · rw [State.playSfx_start hn hoffset]
    rfl
  · cases hchannel : channelOperand channel with
    | some c =>
      rw [Channels.pick_of_some hchannel]
      exact .inl (channelOperand_eq_some.mp hchannel)
    | none => exact .inr ⟨channelOperand_eq_none.mp hchannel, Channels.pick_of_none hchannel⟩
  · rw [State.playSfx_start hn hoffset, State.noResult_channels, State.withChannels_channels,
      Channels.get_put_of_ne _ hd]
  · rw [State.playSfx_start hn hoffset, State.noResult_channels, State.withChannels_channels,
      Channels.get_put_same, State.trigger_eq]
    rfl

/-- The hypotheses of `sfxStarts` hold of sound effect 63 at note 31. -/
theorem exec_sfx_starts : ∃ t c, exec (.sfx (some 63) none (some 31)) State.reset = .next t ∧
    (t.channels.get c).sfxIdx = some 63 := by
  obtain ⟨t, c, hexec, -, -, -, hchannel⟩ :=
    sfxStarts State.reset 63 none (some 31) 63 31 (by decide) (.inr ⟨31, rfl, by decide⟩)
  exact ⟨t, c, hexec, congrArg Channel.sfxIdx hchannel⟩

theorem Channels.get_stop (cs : Channels) (channel : Operand) (c : Fin 4) : (cs.stop channel).get c =
    if ∃ d, channelOperand channel = some d ∧ d ≠ c then cs.get c else (cs.get c).stopped := by
  cases h : channelOperand channel with
  | none =>
    rw [Channels.stop, h, if_neg (by simp)]
    match c with
    | 0 | 1 | 2 | 3 => rfl
  | some d =>
    rw [Channels.stop, h, Channels.get_put]
    by_cases hd : c = d
    · subst hd
      rw [if_pos rfl, if_neg (by simp)]
    · rw [if_neg hd, if_pos ⟨d, rfl, Ne.symm hd⟩]

/-- Another channel than `c` is the explicit one. -/
theorem exists_channelOperand_ne {channel : Operand} {c : Fin 4} :
    (∃ d, channelOperand channel = some d ∧ d ≠ c) ↔
      ∃ v, channel = some v ∧ 0 ≤ v.toInt ∧ v.toInt ≤ 3 ∧ v.toInt ≠ c.val := by
  constructor
  · rintro ⟨d, hd, hne⟩
    obtain ⟨v, hv, hval⟩ := channelOperand_eq_some.mp hd
    exact ⟨v, hv, by omega, by omega, by omega⟩
  · rintro ⟨v, hv, hlow, hhigh, hne⟩
    have hlt : v.toInt.toNat < 4 := by omega
    refine ⟨⟨v.toInt.toNat, hlt⟩, channelOperand_eq_some.mpr ⟨v, hv, by simp; omega⟩, fun h => hne ?_⟩
    rw [← h]
    simp
    omega

/-- Settles O40: `stop` channel by channel, and the two ways out of range. -/
theorem sfxStopsOrIgnores : Obligations.SfxStopsOrIgnores := by
  intro s n channel offset
  refine ⟨fun hn => ?_, fun hn => ?_, fun hn ho => ?_⟩
  · refine ⟨(s.withChannels (s.channels.stop channel)).noResult, ?_, rfl, fun c => ⟨fun hother => ?_, fun hnot => ?_⟩⟩
    · rw [exec_sfx, hn, State.playSfx_stop]
    · exact (Channels.get_stop s.channels channel c).trans (if_pos (exists_channelOperand_ne.mpr hother))
    · exact (Channels.get_stop s.channels channel c).trans (if_neg (mt exists_channelOperand_ne.mp hnot))
  · rw [exec_sfx, State.playSfx_ignored (by omega) (.inl (asFin_eq_none.mpr (by omega)))]
    rfl
  · obtain ⟨v, rfl, hv⟩ := ho
    have hnone : asFin 32 (optInt (some v) 0) = none := asFin_eq_none.mpr (by simp only [optInt, sval]; omega)
    rw [exec_sfx, State.playSfx_ignored hn (.inr hnone)]
    rfl

/-- The hypotheses of `sfxStopsOrIgnores` hold of the number 64, and of note 32. -/
theorem exec_sfx_ignored :
    exec (.sfx (some 64) none none) State.reset = .next { State.reset with result := none } ∧
    exec (.sfx (some 5) none (some 32)) State.reset = .next { State.reset with result := none } :=
  ⟨(sfxStopsOrIgnores State.reset 64 none none).2.1 (.inr (by decide)),
    (sfxStopsOrIgnores State.reset 5 none (some 32)).2.2 (by decide) ⟨32, rfl, .inr (by decide)⟩⟩

theorem execMusic_start {s : State} {n : Word} {p : Fin 64} (h : n.toInt = p.val) : execMusic (some n) s =
    .next { s with mus := { pattern := some p, tick := 0, loop := false }, result := none } := by
  have hn : ¬ sval n = -1 := by unfold sval; omega
  simp only [execMusic, if_neg hn, asFin_eq_some.mpr (show sval n = p.val from h)]
  rfl

theorem execMusic_stop {s : State} {n : Word} (h : n.toInt = -1) : execMusic (some n) s =
    .next { s with mus := { pattern := none, tick := 0, loop := false }, result := none } := if_pos h

theorem execMusic_ignored {s : State} {n : Word} (h : n.toInt < -1 ∨ 63 < n.toInt) :
    execMusic (some n) s = .next { s with result := none } := by
  have hn : ¬ sval n = -1 := by unfold sval; omega
  have hnone : asFin 64 (sval n) = none := asFin_eq_none.mpr (by unfold sval; omega)
  simp only [execMusic, if_neg hn, hnone]
  rfl

/-- A clamped volume fits into the volume register. -/
theorem toNat_ofInt_clampVolume (v : Int) : ((BitVec.ofInt 8 (clampInt v 0 255)).toNat : Int) = max 0 (min 255 v) := by
  rw [BitVec.toNat_ofInt, clampInt]
  omega

/-- Settles O41. -/
theorem musicAndVolume : Obligations.MusicAndVolume := fun s n =>
  ⟨fun _ hp => execMusic_start hp, fun hn => execMusic_stop hn, fun hn => execMusic_ignored hn,
    { s with masterVol := BitVec.ofInt 8 (clampInt (sval n) 0 255) }.noResult, rfl, rfl, toNat_ofInt_clampVolume _⟩

/-- The hypotheses of `musicAndVolume` hold of pattern 63, of -1 and of 64. -/
theorem exec_music_patterns :
    exec (.music (some 63)) State.reset =
      .next { State.reset with mus := { pattern := some 63, tick := 0, loop := false }, result := none } ∧
    exec (.music (some (-1))) State.reset =
      .next { State.reset with mus := { pattern := none, tick := 0, loop := false }, result := none } ∧
    exec (.music (some 64)) State.reset = .next { State.reset with result := none } :=
  ⟨(musicAndVolume State.reset 63).1 63 (by decide), (musicAndVolume State.reset (-1)).2.1 (by decide),
    (musicAndVolume State.reset 64).2.2.1 (.inr (by decide))⟩

end Sys2Proof.Machine
end

section
/-! SUPPORT. The sample step (49_synth.md R440 to R460): what one channel does in each of its cases, which state it
depends on, and the range of the mixed sample. -/

namespace Sys2Proof.Machine

/-! ## A channel's tick (R440) -/

section
variable (s : State) (n : Fin 64) {c : Channel}

theorem State.tickChannel_within (h : c.tickCtr.toNat + 1 < c.samplesPerTick.toNat) :
    s.tickChannel n c = { c with tickCtr := c.tickCtr + 1 } := by
  rw [State.tickChannel, if_neg (by omega)]

theorem State.tickChannel_rollover (h : c.samplesPerTick.toNat ≤ c.tickCtr.toNat + 1) :
    s.tickChannel n c = s.rollover n c := by
  rw [State.tickChannel, if_pos h]

theorem State.rollover_next {k : Fin 32} (hk : k.val = c.noteIdx.val + 1) :
    s.rollover n c = s.startNote n k c := by
  have hlt : c.noteIdx.val + 1 < 32 := hk ▸ k.isLt
  have hnote : c.noteIdx + 1 = k := by
    rw [Fin.ext_iff, Fin.val_add, hk]
    exact Nat.mod_eq_of_lt hlt
  rw [← State.loadNote_eq_startNote, ← hnote]
  exact if_pos hlt

theorem State.rollover_loop (h31 : c.noteIdx = 31) {k : Fin 32}
    (hk : (s.peek (0x3200 + 68 * n.val + 66)).toNat = k.val)
    (hloop : (s.peek (0x3200 + 68 * n.val + 66)).toNat < (s.peek (0x3200 + 68 * n.val + 67)).toNat) :
    s.rollover n c = s.startNote n k c := by
  have hlast : ¬ c.noteIdx.val + 1 < 32 := by
    rw [h31]
    decide
  have hnote : Fin.ofNat 32 (s.peek (sfxAddr n 66)).toNat = k := by
    rw [Fin.ext_iff, Fin.val_ofNat]
    exact (congrArg (· % 32) hk).trans (Nat.mod_eq_of_lt k.isLt)
  rw [← State.loadNote_eq_startNote, ← hnote]
  exact (if_neg hlast).trans (if_pos ⟨hloop, hk.trans_le (Nat.le_of_lt_succ k.isLt)⟩)

theorem State.rollover_stop (h31 : c.noteIdx = 31)
    (hstop : (s.peek (0x3200 + 68 * n.val + 67)).toNat ≤ (s.peek (0x3200 + 68 * n.val + 66)).toNat ∨
      31 < (s.peek (0x3200 + 68 * n.val + 66)).toNat) :
    s.rollover n c = { c with sfxIdx := none, tickCtr := 0, phase := 0 } := by
  have hlast : ¬ c.noteIdx.val + 1 < 32 := by
    rw [h31]
    decide
  refine (if_neg hlast).trans (if_neg ?_)
  rintro ⟨hloop, hle⟩
  exact hstop.elim (Nat.not_le.mpr hloop) (Nat.not_lt.mpr hle)

end

/-! ## A channel's part of a sample step (R440) -/

section
variable {s : State} {c c' : Channel} {n : Fin 64}

theorem State.sampleChannel_idle (h : c.sfxIdx = none) : s.sampleChannel c = (c, 0) := by
  rw [State.sampleChannel, h]

theorem State.sampleChannel_stops (h : c.sfxIdx = some n) (htick : s.tickChannel n c = c') (hoff : c'.sfxIdx = none) :
    s.sampleChannel c = (c', 0) := by
  simp only [State.sampleChannel, h, htick, hoff, if_true]

theorem Sounds_advancePhase (cfg : Config) (p : Channel) : Sounds cfg p (advancePhase cfg p) (channelTerm cfg p) := by
  refine ⟨?_, rfl⟩
  rw [advancePhase, BitVec.ofNat_add, BitVec.ofNat_toNat, BitVec.ofNat_toNat, BitVec.setWidth_eq, BitVec.setWidth_eq]

theorem State.sampleChannel_sounds (h : c.sfxIdx = some n) (htick : s.tickChannel n c = c') (hon : c'.sfxIdx ≠ none) :
    Sounds s.cfg c' (s.sampleChannel c).1 (s.sampleChannel c).2 := by
  have hstep : s.sampleChannel c = (advancePhase s.cfg c', channelTerm s.cfg c') := by
    simp only [State.sampleChannel, h, htick, if_neg hon]
  rw [hstep]
  exact Sounds_advancePhase s.cfg c'

end

/-! ## What a channel's part depends on (R460) -/

section
variable {s s' : State} (hcfg : s.cfg = s'.cfg) (hbytes : ∀ a, 0x3200 ≤ a → a < 0x4300 → s.peek a = s'.peek a)
include hbytes

/-- The bytes of a sound effect lie in the region. -/
theorem State.peek_sfxAddr_congr (n : Fin 64) {k : Nat} (hk : k < 68) : s.peek (sfxAddr n k) = s'.peek (sfxAddr n k) := by
  have := n.isLt
  exact hbytes _ (by unfold sfxAddr sfxBase; omega) (by unfold sfxAddr sfxBase; omega)

theorem State.noteWord_congr (n : Fin 64) (k : Fin 32) : s.noteWord n k = s'.noteWord n k :=
  congrArg₂ (fun high low : Byte => (high ++ low : Half))
    (State.peek_sfxAddr_congr hbytes n (k := 2 * k.val + 1) (by omega))
    (State.peek_sfxAddr_congr hbytes n (k := 2 * k.val) (by omega))

include hcfg

theorem State.loadNote_congr (n : Fin 64) (c : Channel) : s.loadNote n c = s'.loadNote n c := by
  rw [State.loadNote, State.loadNote, hcfg, State.noteWord_congr hbytes]

theorem State.rollover_congr (n : Fin 64) (c : Channel) : s.rollover n c = s'.rollover n c := by
  simp only [State.rollover, State.loadNote_congr hcfg hbytes,
    State.peek_sfxAddr_congr hbytes n (k := 66) (by omega), State.peek_sfxAddr_congr hbytes n (k := 67) (by omega)]

theorem State.tickChannel_congr (n : Fin 64) (c : Channel) : s.tickChannel n c = s'.tickChannel n c := by
  rw [State.tickChannel, State.tickChannel, State.rollover_congr hcfg hbytes]

theorem State.sampleChannel_congr (c : Channel) : s.sampleChannel c = s'.sampleChannel c := by
  cases h : c.sfxIdx with
  | none => rw [State.sampleChannel_idle h, State.sampleChannel_idle h]
  | some n => simp only [State.sampleChannel, h, State.tickChannel_congr hcfg hbytes, hcfg]

end

/-! ## The sample step -/

/-- The channels after a sample step. -/
def State.sampledChannels (s : State) : Channels :=
  ⟨(s.sampleChannel s.channels.ch0).1, (s.sampleChannel s.channels.ch1).1, (s.sampleChannel s.channels.ch2).1,
    (s.sampleChannel s.channels.ch3).1⟩

/-- A channel's term of the mix. -/
def State.mixTerm (s : State) (c : Fin 4) : Int := (s.sampleChannel (s.channels.get c)).2

/-- The sample a sample step delivers, before it is cut to the port's 16 bits. -/
def State.mixed (s : State) : Int := masterScale s.masterVol (s.mixTerm 0 + s.mixTerm 1 + s.mixTerm 2 + s.mixTerm 3)

/-- The state after a sample step. -/
def State.sampled (s : State) : State :=
  { s with channels := s.sampledChannels, sampleOut := s.sampleOut ++ [BitVec.ofInt 16 s.mixed] }

theorem exec_sample (s : State) : exec .sample s = .next s.sampled := rfl

theorem State.get_sampledChannels (s : State) (c : Fin 4) :
    s.sampledChannels.get c = (s.sampleChannel (s.channels.get c)).1 := by
  match c with
  | 0 | 1 | 2 | 3 => rfl

section
variable {s s' : State} (hcfg : s.cfg = s'.cfg) (hchannels : s.channels = s'.channels)
  (hbytes : ∀ a, 0x3200 ≤ a → a < 0x4300 → s.peek a = s'.peek a)
include hcfg hchannels hbytes

theorem State.sampledChannels_congr : s.sampledChannels = s'.sampledChannels := by
  simp only [State.sampledChannels, State.sampleChannel_congr hcfg hbytes, hchannels]

theorem State.mixed_congr (hvol : s.masterVol = s'.masterVol) : s.mixed = s'.mixed := by
  simp only [State.mixed, State.mixTerm, State.sampleChannel_congr hcfg hbytes, hchannels, hvol]

end

/-! ## The range of a sample (R441) -/

theorem clip16_bounds (v : Int) : -32768 ≤ clip16 v ∧ clip16 v ≤ 32767 := by
  unfold clip16
  omega

theorem tdiv_256_bounds {x : Int} (hlow : -(32768 * 255) ≤ x) (hhigh : x ≤ 32767 * 255) :
    -32640 ≤ x.tdiv 256 ∧ x.tdiv 256 ≤ 32639 := by
  rcases Int.le_total 0 x with hx | hx
  · rw [Int.tdiv_eq_ediv_of_nonneg hx]
    omega
  · obtain ⟨y, rfl⟩ : ∃ y, x = -y := ⟨-x, by omega⟩
    rw [Int.neg_tdiv, Int.tdiv_eq_ediv_of_nonneg (by omega)]
    omega

/-- A clipped mix, scaled by a volume of at most 255 out of 256. -/
theorem masterScale_bounds (vol : Byte) (mix : Int) : -32640 ≤ masterScale vol mix ∧ masterScale vol mix ≤ 32639 := by
  obtain ⟨hlow, hhigh⟩ := clip16_bounds mix
  have hvol : (vol.toNat : Int) ≤ 255 := by
    have := vol.isLt
    omega
  exact tdiv_256_bounds (by nlinarith) (by nlinarith)

theorem masterScale_zero (vol : Byte) : masterScale vol 0 = 0 := by
  simp [masterScale, clip16]

/-! ## The obligations -/

/-- Settles O42: `sampled` changes two fields, and its sample is in range. -/
theorem sampleFrame : Obligations.SampleFrame := by
  intro s
  refine ⟨s.sampled, exec_sample s, rfl, fun c hidle => ?_, BitVec.ofInt 16 s.mixed, rfl, fun hidle => ?_, ?_⟩
  · exact (s.get_sampledChannels c).trans (congrArg Prod.fst (State.sampleChannel_idle hidle))
  · have hterm (c : Fin 4) : s.mixTerm c = 0 := congrArg Prod.snd (State.sampleChannel_idle (hidle c))
    have hzero : s.mixed = 0 := by
      rw [State.mixed, hterm, hterm, hterm, hterm]
      exact masterScale_zero _
    rw [hzero]
    rfl
  · obtain ⟨hlow, hhigh⟩ : -32640 ≤ s.mixed ∧ s.mixed ≤ 32639 := masterScale_bounds _ _
    rw [BitVec.toInt_ofInt_eq_self (by decide) (by omega) (by omega)]
    exact ⟨hlow, hhigh⟩

/-- The cases of a playing channel, with `q` and `term` what a sample step leaves and adds. -/
theorem State.sampleChannel_playing {s : State} {p : Channel} {n : Fin 64} (hp : p.sfxIdx = some n) :
    let q := (s.sampleChannel p).1
    let term := (s.sampleChannel p).2
    let ls := s.peek (0x3200 + 68 * n.val + 66)
    let le := s.peek (0x3200 + 68 * n.val + 67)
    (p.tickCtr.toNat + 1 < p.samplesPerTick.toNat → Sounds s.cfg { p with tickCtr := p.tickCtr + 1 } q term) ∧
    (p.samplesPerTick.toNat ≤ p.tickCtr.toNat + 1 →
      (∀ k : Fin 32, k.val = p.noteIdx.val + 1 → Sounds s.cfg (s.startNote n k p) q term) ∧
      (p.noteIdx = 31 → ∀ k : Fin 32, ls.toNat = k.val → ls.toNat < le.toNat →
        Sounds s.cfg (s.startNote n k p) q term) ∧
      (p.noteIdx = 31 → (le.toNat ≤ ls.toNat ∨ 31 < ls.toNat) →
        q = { p with sfxIdx := none, tickCtr := 0, phase := 0 } ∧ term = 0)) := by
  have hon : p.sfxIdx ≠ none := by
    rw [hp]
    nofun
  refine ⟨fun hwithin => ?_, fun hend => ⟨fun k hk => ?_, fun h31 k hk hloop => ?_, fun h31 hstop => ?_⟩⟩
  · exact State.sampleChannel_sounds hp (s.tickChannel_within n hwithin) hon
  · exact State.sampleChannel_sounds hp ((s.tickChannel_rollover n hend).trans (s.rollover_next n hk)) hon
  · exact State.sampleChannel_sounds hp ((s.tickChannel_rollover n hend).trans (s.rollover_loop n h31 hk hloop)) hon
  · have hstopped : s.sampleChannel p = ({ p with sfxIdx := none, tickCtr := 0, phase := 0 }, 0) :=
      State.sampleChannel_stops hp ((s.tickChannel_rollover n hend).trans (s.rollover_stop n h31 hstop)) rfl
    exact ⟨congrArg Prod.fst hstopped, congrArg Prod.snd hstopped⟩

/-- The reference noise register's input bit (R447). -/
theorem lfsrRef_eq (l : Half) : lfsrRef l = (l >>> 1) |||
    ((BitVec.ofBool (l.getLsbD 0 ^^ l.getLsbD 2 ^^ l.getLsbD 3 ^^ l.getLsbD 5)).setWidth 16 <<< 15) := by
  have hbit : (l ^^^ l >>> 2 ^^^ l >>> 3 ^^^ l >>> 5) &&& 1 =
      (BitVec.ofBool (l.getLsbD 0 ^^ l.getLsbD 2 ^^ l.getLsbD 3 ^^ l.getLsbD 5)).setWidth 16 := by
    have h := BitVec.and_one_eq_setWidth_ofBool_getLsbD (x := l ^^^ l >>> 2 ^^^ l >>> 3 ^^^ l >>> 5)
    rw [BitVec.getLsbD_xor, BitVec.getLsbD_xor, BitVec.getLsbD_xor, BitVec.getLsbD_ushiftRight,
      BitVec.getLsbD_ushiftRight, BitVec.getLsbD_ushiftRight] at h
    exact h
  rw [← hbit]
  rfl

/-- Settles O43: the cases of each channel, and the recursion of the noise register. -/
theorem sampleWithinNote : Obligations.SampleWithinNote := by
  refine ⟨fun s => ⟨s.sampled, s.mixTerm, exec_sample s, rfl, rfl, fun c => ?_⟩, fun l f n => ⟨rfl, rfl, lfsrRef_eq l⟩⟩
  intro p q
  have hq : q = (s.sampleChannel p).1 := s.get_sampledChannels c
  rw [hq]
  exact ⟨fun hidle => Prod.ext_iff.mp (State.sampleChannel_idle hidle), fun n hn => State.sampleChannel_playing hn⟩

/-- The reset state with channel 0 inside a note, one sample before its end. -/
def sounding : State :=
  { State.reset with
    channels := State.reset.channels.put 0
      { Channel.atReset 0xACE1 with sfxIdx := some 0, samplesPerTick := 183, tickCtr := 181, vol := 7 } }

/-- The hypothesis of the case within a note of `sampleWithinNote` holds of `sounding`. -/
theorem exec_sample_sounding : ∃ t term, exec .sample sounding = .next t ∧
    Sounds sounding.cfg { sounding.channels.get 0 with tickCtr := 182 } (t.channels.get 0) term := by
  obtain ⟨t, term, hexec, -, -, hvoices⟩ := sampleWithinNote.1 sounding
  exact ⟨t, term 0, hexec, ((hvoices 0).2 0 rfl).1 (by decide)⟩

/-- Settles O44: `sampleChannel` reads no other byte. -/
theorem audioDeterminism : Obligations.AudioDeterminism := by
  intro s s' hcfg hchannels hvol hbytes
  refine ⟨s.sampled, s'.sampled, BitVec.ofInt 16 s.mixed, exec_sample s, exec_sample s', rfl, ?_,
    State.sampledChannels_congr hcfg hchannels hbytes⟩
  rw [State.mixed_congr hcfg hchannels hbytes hvol]
  rfl

/-- The hypotheses of `audioDeterminism` hold of two states that differ in a byte behind the region. -/
theorem exec_sample_of_byte_behind : ∃ t t', exec .sample sounding = .next t ∧
    exec .sample (sounding.poke 0x4300 1) = .next t' ∧ t.channels = t'.channels := by
  have hwf : sounding.mem.wf = true := by decide +kernel
  have hbytes (a : Nat) (ha : a < 0x4300) : sounding.peek a = (sounding.poke 0x4300 1).peek a :=
    ((State.poke_writes sounding 0x4300 1).peek hwf (Nat.ne_of_lt ha)).symm
  obtain ⟨t, t', -, hexec, hexec', -, -, hchannels⟩ :=
    audioDeterminism sounding (sounding.poke 0x4300 1) rfl rfl rfl fun a _ ha => hbytes a ha
  exact ⟨t, t', hexec, hexec', hchannels⟩

theorem State.sampled_withVm (s : State) (v : Controller) : (s.withVm v).sampled = s.sampled.withVm v := by
  have hchannels : (s.withVm v).sampledChannels = s.sampledChannels :=
    State.sampledChannels_congr rfl rfl fun _ _ _ => rfl
  have hmixed : (s.withVm v).mixed = s.mixed := State.mixed_congr rfl rfl (fun _ _ _ => rfl) rfl
  rw [State.sampled, hchannels, hmixed]
  rfl

/-- Settles O8: the guards of `pause` and `resume`; the sample step does not read the controller. -/
theorem pauseResumeToggle : Obligations.PauseResumeToggle := by
  intro s
  have hpause : exec .pause s = .next (if s.vm.state = .running then s.enter .paused else s).noResult := rfl
  have hresume : exec .resume s = .next (if s.vm.state = .paused then s.enter .running else s).noResult := rfl
  refine ⟨fun h => ?_, fun h => ?_, fun h => ?_, fun h => ?_, fun v => congrArg Host.Outcome.next (s.sampled_withVm v)⟩
  · rw [hpause, if_pos h]
    rfl
  · rw [hpause, if_neg h]
    rfl
  · rw [hresume, if_pos h]
    rfl
  · rw [hresume, if_neg h]
    rfl

/-- The hypotheses of `pauseResumeToggle` that do nothing hold of the reset state. -/
theorem exec_pause_reset : exec .pause State.reset = .next { State.reset with result := none } ∧
    exec .resume State.reset = .next { State.reset with result := none } := by
  obtain ⟨-, hpause, -, hresume, -⟩ := pauseResumeToggle State.reset
  exact ⟨hpause (by decide), hresume (by decide)⟩

end Sys2Proof.Machine
end
